-- ==== Sys2Proof/Word.lean ====
section
/-! DEFINITION. The word widths of the CG-5's wire formats and counters. -/

namespace Sys2Proof

/-- One byte on the wire (chapter 11). -/
abbrev Byte := BitVec 8

/-- A two-byte field: request tags, event sequence numbers, the generation number. -/
abbrev Half := BitVec 16

/-- A four-byte field: cycle numbers and counters ("Conventions": both are 32-bit and wrap). -/
abbrev Word := BitVec 32

/-- A stream number as a header carries it: the low 12 bits of its field (R167). -/
abbrev StreamNo := BitVec 12

end Sys2Proof
end

