-- ==== Sys2Proof/Syntax.lean ====
section
/-! DEFINITION. The commands the gate takes: one constructor of `Instr` for each row of the opcode
table, with the operands the manual gives the event or the request. -/

namespace Sys2Proof

/-- The five ports: the trunk T and the branches B0 to B3. -/
inductive Port where
  | t | b0 | b1 | b2 | b3
  deriving DecidableEq, Repr

/-- The ports in the manual's order T, B0, B1, B2, B3 (R52). -/
def Port.all : List Port := [.t, .b0, .b1, .b2, .b3]

/-- The branch ports. -/
def Port.branches : List Port := [.b0, .b1, .b2, .b3]

/-- One value for each port. A `PerPort Bool` is a set of ports. -/
@[ext] structure PerPort (α : Type) where
  t : α
  b0 : α
  b1 : α
  b2 : α
  b3 : α
  deriving DecidableEq, Repr

/-- The value of one port. -/
def PerPort.get {α : Type} (x : PerPort α) : Port → α
  | .t => x.t
  | .b0 => x.b0
  | .b1 => x.b1
  | .b2 => x.b2
  | .b3 => x.b3

/-- The same values but for one port. -/
def PerPort.set {α : Type} (x : PerPort α) (p : Port) (a : α) : PerPort α :=
  match p with
  | .t => { x with t := a }
  | .b0 => { x with b0 := a }
  | .b1 => { x with b1 := a }
  | .b2 => { x with b2 := a }
  | .b3 => { x with b3 := a }

/-- The same value for every port. -/
def PerPort.fill {α : Type} (a : α) : PerPort α := ⟨a, a, a, a, a⟩

/-- A function applied at every port. -/
def PerPort.map {α β : Type} (f : α → β) (x : PerPort α) : PerPort β :=
  ⟨f x.t, f x.b0, f x.b1, f x.b2, f x.b3⟩

/-- Four like things: the class queues of a port, the session slots. A `Quad Bool` is a class set. -/
@[ext] structure Quad (α : Type) where
  q0 : α
  q1 : α
  q2 : α
  q3 : α
  deriving DecidableEq, Repr

/-- One of the four. -/
def Quad.get {α : Type} (x : Quad α) : Fin 4 → α
  | 0 => x.q0
  | 1 => x.q1
  | 2 => x.q2
  | 3 => x.q3

/-- The same four but for one. -/
def Quad.set {α : Type} (x : Quad α) (i : Fin 4) (a : α) : Quad α :=
  match i with
  | 0 => { x with q0 := a }
  | 1 => { x with q1 := a }
  | 2 => { x with q2 := a }
  | 3 => { x with q3 := a }

/-- The same value four times. -/
def Quad.fill {α : Type} (a : α) : Quad α := ⟨a, a, a, a⟩

/-- A function applied to each of the four. -/
def Quad.map {α β : Type} (f : α → β) (x : Quad α) : Quad β := ⟨f x.q0, f x.q1, f x.q2, f x.q3⟩

/-- The four in order. -/
def Quad.toList {α : Type} (x : Quad α) : List α := [x.q0, x.q1, x.q2, x.q3]

/-- The ten header bytes of a frame, by field (R106, 11.1). `kind` is the byte as received, `streamField`
all sixteen bits of bytes 4 and 5 (R167). -/
structure Header where
  destination : Byte
  source : Byte
  kind : Byte
  hopLimit : Byte
  streamField : Half
  length : Half
  tag : Half
  deriving DecidableEq, Repr

/-- What the trunk receiver hands over with every gate-addressed request (R116): the source station, the
tag, the flags byte, and the declared payload length, which counts the request code and the flags. -/
structure RequestHead where
  source : Byte
  tag : Half
  flags : Byte
  length : Half
  deriving DecidableEq, Repr

/-- The body of STAGE_STREAM PUT after the operation, as it stands on the wire (11.2). -/
structure StreamBody where
  stream : Half
  ingress : Byte
  egress : Byte
  cls : Byte
  maxPayload : Half
  budget : Byte
  lifetime : Byte
  report : Byte
  deriving DecidableEq, Repr

/-- The body of STAGE_WINDOW PUT after the operation, as it stands on the wire (11.2). -/
structure WindowBody where
  port : Byte
  start : Word
  length : Word
  classes : Byte
  deriving DecidableEq, Repr

/-- The body of STAGE_PARAMS: a parameter is present where the presence mask has its bit (11.2). -/
structure ParamsBody where
  cycleLength : Option Word
  syncOffset : Option Word
  halfWidth : Option Half
  lockTolerance : Option Byte
  stepThreshold : Option Half
  holdoverLimit : Option Byte
  policy : Option Byte
  retransmitTime : Option Byte
  deriving DecidableEq, Repr

/-- The commands: one constructor for each row of spec/opcode_table.json. A request constructor is the
request as the management unit takes it from the trunk receiver (R134). -/
inductive Instr where
  /-- RESET_ASSERT: RESET_N falls (R164). -/
  | resetAssert
  /-- RESET_RELEASE: RESET_N rises with the station straps, the FALLBACK strap (high: BLOCK) and the
  five link inputs (high: UP) as given (R162 to R164). -/
  | resetRelease (straps : Byte) (fallbackHigh : Bool) (links : PerPort Bool)
  /-- NATURAL_CYCLE_START: the running timer reaches the end of the cycle (R84). -/
  | naturalCycleStart
  /-- LIFETIME_EXPIRY: the expiry of one egress unit at a natural cycle start (R73). -/
  | lifetimeExpiry (p : Port)
  /-- SWAP: the natural cycle start at which the armed commit is swapped in (R54). -/
  | swap
  /-- WINDOW_OPEN: the running timer reaches the start of the window of this key (R3). -/
  | windowOpen (p : Port) (start : Nat)
  /-- WINDOW_CLOSE: the running timer reaches the end of a window of this port (R3). -/
  | windowClose (p : Port) (stop : Nat)
  /-- MISSED_SYNC_EVALUATION: the running timer reaches O + W + 32 (R95). -/
  | missedSyncEvaluation
  /-- FRAME_START: a transceiver reports the start of a frame (R110). -/
  | frameStart (p : Port)
  /-- HEADER_DECISION: the tenth byte completes this header (R111). -/
  | headerDecision (p : Port) (h : Header)
  /-- FRAME_END: a transceiver reports the end of the frame; `rest` holds the bytes after the header, or, in a
  frame shorter than a header, all of them (R114). -/
  | frameEnd (p : Port) (rest : List Byte)
  /-- SYNC_FRAME: the cycle timer unit takes a trunk SYNC frame with its capture, its payload length and,
  where that is 8, the two words of its payload (R86 to R88). -/
  | syncFrame (capture : Nat) (length : Half) (number : Word) (cycleLength : Word)
  /-- DATA_TX_END: the occupancy of a data frame elapses (R71). -/
  | dataTxEnd (p : Port)
  /-- OWN_TX_END: the occupancy of an own frame on T elapses (R80). -/
  | ownTxEnd
  /-- SYNC_TX_END: the occupancy of a branch sync frame elapses (R103). -/
  | syncTxEnd (p : Port)
  /-- CHOICE: an egress unit makes a choice (R11). -/
  | choice (p : Port)
  /-- LINK_LOSS: a transceiver reports its link DOWN (R122). -/
  | linkLoss (p : Port)
  /-- LINK_RETURN: a transceiver reports its link UP (R123). -/
  | linkReturn (p : Port)
  /-- DRAIN_COMPLETION: a draining port is idle and empty (R126). -/
  | drainCompletion (p : Port)
  /-- LEASE_EXPIRY: the lease of the session in this slot reaches 0 (R135). -/
  | leaseExpiry (slot : Fin 4)
  /-- RETRANSMIT_TIMER_EXPIRY: the event retransmit timer reaches 0 (R156). -/
  | retransmitTimerExpiry
  /-- DEFERRED_RETRANSMISSION: a due retransmission finds a free slot (R156). -/
  | deferredRetransmission
  /-- REPORT_BUILD: the event unit builds a report (R155). -/
  | reportBuild
  /-- OVERFLOW_QUEUED: the event unit queues the OVERFLOW notice (R153). -/
  | overflowQueued
  /-- WARM_RESTART: the pending restart is carried out (R146). -/
  | warmRestart
  /-- OPEN (R137). -/
  | openSession (r : RequestHead) (mode : Byte) (lease : Half)
  /-- CLOSE (R139). -/
  | closeSession (r : RequestHead)
  /-- RENEW (R139). -/
  | renew (r : RequestHead)
  /-- READ of IDENTITY (R143). -/
  | readIdentity (r : RequestHead)
  /-- READ of STREAM (R143). -/
  | readStream (r : RequestHead) (copy : Byte) (stream : Half)
  /-- READ of WINDOW (R143). -/
  | readWindow (r : RequestHead) (copy : Byte) (port : Byte) (index : Byte)
  /-- READ of PARAMS (R143). -/
  | readParams (r : RequestHead) (copy : Byte)
  /-- READ of STREAM_COUNTERS (R143). -/
  | readStreamCounters (r : RequestHead) (stream : Half)
  /-- READ of PORT (R143). -/
  | readPort (r : RequestHead) (port : Byte)
  /-- READ of SYNC (R104). -/
  | readSync (r : RequestHead)
  /-- READ of SESSIONS (R143). -/
  | readSessions (r : RequestHead)
  /-- READ of EVENTS (R161). -/
  | readEvents (r : RequestHead)
  /-- READ of COMMIT (R63). -/
  | readCommit (r : RequestHead)
  /-- ACK (R158). -/
  | ack (r : RequestHead) (n : Half)
  /-- STAGE_STREAM PUT (R46). -/
  | stageStreamPut (r : RequestHead) (b : StreamBody)
  /-- STAGE_STREAM DELETE (R47). -/
  | stageStreamDelete (r : RequestHead) (stream : Half)
  /-- STAGE_WINDOW PUT (R48). -/
  | stageWindowPut (r : RequestHead) (b : WindowBody)
  /-- STAGE_WINDOW DELETE (R49). -/
  | stageWindowDelete (r : RequestHead) (port : Byte) (start : Word)
  /-- STAGE_WINDOW CLEAR_PORT (R49). -/
  | stageWindowClearPort (r : RequestHead) (port : Byte)
  /-- STAGE_PARAMS (R50). -/
  | stageParams (r : RequestHead) (b : ParamsBody)
  /-- COMMIT (R51). -/
  | commit (r : RequestHead) (target : Word)
  /-- ABORT (R58). -/
  | abort (r : RequestHead) (option : Byte) (expected : Half)
  /-- DRAIN (R124). -/
  | drain (r : RequestHead) (port : Byte) (option : Byte)
  /-- RESUME (R129). -/
  | resume (r : RequestHead) (port : Byte)
  /-- CLEAR_COUNTERS (R144). -/
  | clearCounters (r : RequestHead)
  /-- RESTART (R145). -/
  | restart (r : RequestHead)
  /-- A request with a code the gate does not know, or too short to carry a code and flags (R134). -/
  | unknownRequestCode (r : RequestHead) (code : Byte)
  deriving DecidableEq, Repr

end Sys2Proof
end

