-- ==== Sys2Proof/Decode.lean ====
section
/-! DEFINITION. The commands that words spell: the opcode table gives no row any bits. -/

namespace Sys2Proof

/-- A row of spec/opcode_table.json that gives bits: how many, the word, and the command it spells. -/
structure TableWord where
  nbits : Nat
  word : Nat
  command : Instr
  deriving DecidableEq, Repr

/-- The rows of the table that give bits. There is none: the gate's commands are events and request frames (log entry 8). -/
def tableWords : List TableWord := []

/-- The command that a word spells by the table's bits. -/
def decodeTableWord (nbits w : Nat) : Option Instr :=
  (tableWords.find? fun r => r.nbits = nbits && r.word = w).map (·.command)

end Sys2Proof
end

