-- ==== Sys2Proof/Config.lean ====
section
/-! DEFINITION. The capacities and fixed times the manual gives the part, and the values it leaves open. -/

namespace Sys2Proof.Config

/-- Blocks of the frame-store pool (R64). -/
def poolBlocks : Nat := 512

/-- Capacity of a class queue (R69). -/
def classQueueCapacity : Nat := 32

/-- Slots of the own-frame buffer (R77). -/
def ownSlots : Nat := 8

/-- Ordinary notices the event queue holds at most (R151). -/
def ordinaryNotices : Nat := 31

/-- Notices one report carries at most (R155). -/
def reportNotices : Nat := 8

/-- Entries of a stream table at most (R23). -/
def tableCapacity : Nat := 256

/-- Entries of a schedule at most (R2). -/
def windowCapacity : Nat := 64

/-- Byte times of one millisecond tick: 25,000 clock periods at two periods a byte time (R83, R135). -/
def msByteTimes : Nat := 12500

/-- Start sequence, header, frame check and minimum gap, in byte times (R8). -/
def frameOverhead : Nat := 24

/-- Byte times from a SYNC frame's first header byte to its end (R86, R90). -/
def syncFrameTime : Nat := 22

/-- The byte a field carries where the manual states that the field is there and states no value
for it. DESIGN CHOICE (log entry 6): a free value. It has no body, so nothing can be proved of it; it is
applied to `Aux.freeUses`, which every use advances, so that no two uses are related. -/
opaque freeByte : Nat → Byte

end Sys2Proof.Config
end

