-- ==== Sys2Proof/Machine/State.lean ====
section
/-! DEFINITION. The state of the gate: every item the manual gives a block, as plain data, the queue of waiting
commands, and the few fields that are the model's own (`Aux`). -/

namespace Sys2Proof.Machine

open Sys2Proof

/-! ### Configurations (R1, R22, R42) -/

/-- The fallback policy (R19). -/
inductive Policy where
  | pass | block
  deriving DecidableEq, Repr

/-- The eight parameters of a configuration, in the order of R42's table. -/
structure Params where
  cycleLength : Nat
  syncOffset : Nat
  halfWidth : Nat
  lockTolerance : Nat
  stepThreshold : Nat
  holdoverLimit : Nat
  policy : Policy
  retransmitTime : Nat
  deriving DecidableEq, Repr

/-- The outcomes of a stream that raise notices (R22). -/
structure ReportSet where
  policed : Bool
  late : Bool
  oversize : Bool
  deriving DecidableEq, Repr

/-- A stream entry (R22). -/
structure StreamEntry where
  stream : StreamNo
  ingress : Port
  egress : PerPort Bool
  cls : Fin 4
  maxPayload : Nat
  budget : Nat
  lifetime : Nat
  report : ReportSet
  deriving DecidableEq, Repr

/-- A window entry (R1). -/
structure Window where
  port : Port
  start : Nat
  length : Nat
  classes : Quad Bool
  deriving DecidableEq, Repr

/-- A configuration (R42). The table is listed by stream number and the schedule by port and start, so that
equal configurations are equal data. -/
structure Configuration where
  streams : List StreamEntry
  windows : List Window
  params : Params
  deriving DecidableEq, Repr

/-- The configuration unit (R43). `staged` is the manual's pending configuration. -/
structure ConfigUnit where
  active : Configuration
  staged : Configuration
  generation : Half
  armed : Option Word
  edited : Bool
  deriving DecidableEq, Repr

/-! ### Classifier (R24) -/

/-- The run-time record of an active stream entry (R24). A mark is absent or holds a cycle number. -/
structure StreamRecord where
  stream : StreamNo
  budgetRemaining : Nat
  policedNow : Word
  received : Word
  forwarded : Word
  policed : Word
  oversize : Word
  noQueue : Word
  late : Word
  policedMark : Option Word
  oversizeMark : Option Word
  lateMark : Option Word
  deriving DecidableEq, Repr

/-- The classifier: the records of the active entries and the per-port UNKNOWN_STREAM marks (R24). -/
structure Classifier where
  records : List StreamRecord
  unknownMarks : PerPort (Option Word)
  deriving DecidableEq, Repr

/-! ### Ports -/

/-- A descriptor (R38). `frame` is its frame reference. -/
structure Descriptor where
  frame : Nat
  stream : StreamNo
  length : Nat
  cls : Fin 4
  deadline : Word
  reportLate : Bool
  deriving DecidableEq, Repr

/-- The two kinds of own frame (R77). -/
inductive OwnKind where
  | response | report
  deriving DecidableEq, Repr

/-- An own frame in its slot (R77): the header fields that vary, the payload, and the mark of the restart
response (R145). -/
structure OwnFrame where
  kind : OwnKind
  destination : Byte
  source : Byte
  tag : Half
  payload : List Byte
  restartMark : Bool
  deriving DecidableEq, Repr

/-- The frame a transmitter carries (R8). A branch sync frame carries the cycle number and cycle length of its
payload and the station number of its source (R101). -/
inductive TxFrame where
  | data (d : Descriptor)
  | own (f : OwnFrame)
  | sync (source : Byte) (number : Word) (cycleLength : Nat)
  deriving DecidableEq, Repr

/-- A transmitter: IDLE, or BUSY with a frame, its occupancy and the byte times left of it (R8). -/
inductive Transmitter where
  | idle
  | busy (frame : TxFrame) (occupancy : Nat) (remaining : Nat)
  deriving DecidableEq, Repr

/-- The states of a port receiver (R109). -/
inductive RxState where
  | idle | header | store | control | unkept | dropped
  deriving DecidableEq, Repr

/-- Why a frame in UNKEPT is not kept (R109). -/
inductive Disposition where
  | drained | unknownKind | branchSync | branchMgmt
  deriving DecidableEq, Repr

/-- The reception record of a port (R109). -/
structure Reception where
  state : RxState
  capture : Option Nat
  header : Option Header
  disposition : Option Disposition
  held : Nat
  bytes : Nat
  check : Word
  deriving DecidableEq, Repr

/-- The record of an idle receiver (R109). The manual states no value of the running check between frames:
DESIGN CHOICE (log entry 5), the preset of R166. -/
def Reception.rest : Reception :=
  { state := .idle, capture := none, header := none, disposition := none, held := 0, bytes := 0,
    check := 0xFFFFFFFF }

/-- The admin state of a port (R121). -/
inductive Admin where
  | opened | draining | drained
  deriving DecidableEq, Repr

/-- The option of a DRAIN (R124). -/
inductive DrainOption where
  | flush | empty
  deriving DecidableEq, Repr

/-- The drain record (R121). -/
structure DrainRecord where
  option : DrainOption
  cycle : Word
  flushed : Nat
  deriving DecidableEq, Repr

/-- The counters of one port: receive (R120), classifier refusals (R30 to R32), admission (R37), egress (R81) and
branch sync (R101, R102). A counter that a port does not have stays 0 there. -/
structure PortCounters where
  rxFrames : Word
  rxCheck : Word
  rxLength : Word
  rxKind : Word
  rxDrained : Word
  rxNoBuffer : Word
  rxSyncBranch : Word
  rxMgmtBranch : Word
  rxMgmtSource : Word
  rxHop : Word
  rxUnknown : Word
  rxWrongPort : Word
  txLinkDown : Word
  txDrained : Word
  queueFull : Word
  txFrames : Word
  txAborted : Word
  late : Word
  txFlushed : Word
  txOwnDrop : Word
  syncSent : Word
  syncSkipped : Word
  deriving DecidableEq, Repr

/-- Every counter at 0. -/
def PortCounters.zero : PortCounters :=
  ⟨0, 0, 0, 0, 0, 0, 0, 0, 0, 0, 0, 0, 0, 0, 0, 0, 0, 0, 0, 0, 0, 0⟩

/-- What the blocks of one port hold: the port record (R121), the reception record (R109), the transmitter (R8), the four
class queues, head first (R69), and the counters. -/
structure PortUnit where
  link : Bool
  admin : Admin
  drain : Option DrainRecord
  rx : Reception
  tx : Transmitter
  queues : Quad (List Descriptor)
  count : PortCounters
  deriving DecidableEq, Repr

/-- A port after power-on, with the link state its transceiver reports (R8, R69, R109, R121). -/
def PortUnit.powerOn (link : Bool) : PortUnit :=
  { link := link, admin := .opened, drain := none, rx := .rest, tx := .idle, queues := Quad.fill [],
    count := .zero }

/-- The trunk receiver's control buffer while it holds a frame (R113). -/
structure ControlFrame where
  source : Byte
  kind : Byte
  tag : Half
  capture : Option Nat
  length : Half
  payload : List Byte
  deriving DecidableEq, Repr

/-! ### Frame store (R64, R67) -/

/-- A stored frame: the reference its descriptors hold, the header and payload bytes, the number of its blocks, and its
reference count. -/
structure StoredFrame where
  ref : Nat
  bytes : List Byte
  blocks : Nat
  count : Nat
  deriving DecidableEq, Repr

/-- The frame store: the number of free blocks and the stored frames. -/
structure FrameStore where
  free : Nat
  frames : List StoredFrame
  deriving DecidableEq, Repr

/-! ### Cycle timer unit (R83, R85) -/

/-- The clocks: the cycle timer, the cycle number, the end of the current cycle (R83, R84), and the byte times since the
release of RESET_N, of which every 12,500 make a millisecond tick (R83, R135; the phase is log entry 20). -/
structure Clock where
  timer : Nat
  number : Word
  cycleEnd : Nat
  elapsed : Nat
  deriving DecidableEq, Repr

/-- The sync states (R85). -/
inductive SyncState where
  | unsynced | acquiring | locked | holdover
  deriving DecidableEq, Repr

/-- The sync record (R85). -/
structure SyncRecord where
  state : SyncState
  good : Nat
  missed : Nat
  accepted : Bool
  lastError : Option Int
  mismatchMark : Option Word
  deriving DecidableEq, Repr

/-- The sync record after power-on and after a warm restart (R85). -/
def SyncRecord.initial : SyncRecord :=
  { state := .unsynced, good := 0, missed := 0, accepted := false, lastError := none, mismatchMark := none }

/-- The trunk sync counters, in the order of R104. -/
structure TrunkCounters where
  accepted : Word
  missed : Word
  steps : Word
  format : Word
  mismatch : Word
  outside : Word
  duplicate : Word
  deriving DecidableEq, Repr

/-- Every trunk sync counter at 0. -/
def TrunkCounters.zero : TrunkCounters := ⟨0, 0, 0, 0, 0, 0, 0⟩

/-! ### Management unit (R133) -/

/-- The mode of a session. -/
inductive SessionMode where
  | observe | edit
  deriving DecidableEq, Repr

/-- A session record (R133). -/
structure Session where
  station : Byte
  mode : SessionMode
  lease : Nat
  remaining : Nat
  lastSequence : Half
  replay : List Byte
  sink : Bool
  deriving DecidableEq, Repr

/-- The management unit: the four slots and the pending-restart mark (R133). -/
structure Management where
  slots : Quad (Option Session)
  restartPending : Bool
  deriving DecidableEq, Repr

/-! ### Event unit (R148, R151) -/

/-- The fourteen kinds of notice (R149). -/
inductive NoticeKind where
  | syncState | cycleMismatch | commitDone | linkChange | drainDone | streamPoliced | streamOversize
  | streamLate | unknownStream | poolExhausted | sessionExpired | sinkLost | restarted | overflow
  deriving DecidableEq, Repr

/-- A notice (R148). -/
structure Notice where
  sequence : Half
  kind : NoticeKind
  port : Option Port
  stream : Option StreamNo
  cycle : Word
  detail : Word
  deriving DecidableEq, Repr

/-- A queued notice: UNSENT, or SENT (R151). -/
structure QueuedNotice where
  notice : Notice
  sent : Bool
  deriving DecidableEq, Repr

/-- The outstanding report (R151): its send count, and whether a retransmission is due. -/
structure Report where
  sends : Nat
  due : Bool
  deriving DecidableEq, Repr

/-- The event unit (R151). The overflow set lists each of its kinds once, in the order of their codes. -/
structure EventUnit where
  queue : List QueuedNotice
  lastAssigned : Half
  overflowSet : List NoticeKind
  lostCount : Nat
  sink : Option Byte
  report : Option Report
  timer : Option Nat
  poolMark : Option Word
  deriving DecidableEq, Repr

/-- The event unit after power-on (R151). -/
def EventUnit.powerOn : EventUnit :=
  { queue := [], lastAssigned := 0, overflowSet := [], lostCount := 0, sink := none, report := none, timer := none,
    poolMark := none }

/-! ### The gate -/

/-- The straps as sampled at the last release of RESET_N: the station number S and the policy of generation 0 (R162,
R163). -/
structure Straps where
  station : Byte
  policy : Policy
  deriving DecidableEq, Repr

/-- A request frame on T that a warm restart cut off (R147): the instant, what its reception held, and the control buffer. -/
structure CutRequest where
  elapsed : Nat
  header : Header
  bytes : Nat
  check : Word
  frame : ControlFrame
  deriving DecidableEq, Repr

/-- Fields that are the MODEL's own and no register of the manual (log entries 2, 6, 9, 25 and 27): the choices that the present
step still owes (R11); whether the present step has freed a slot that is on offer to a response of the same instant (R79); whether the evaluation of this cycle has been taken (R95); the ports whose expiry for the
coming cycle start has been taken, and the number of the cycle start that left a port's expiry (R75); the
instant of the newest opening of a window of a port (R3, R103); the request frame that the newest warm restart cut
off (R147); and the number of free values used so far. -/
structure Aux where
  choiceDue : PerPort Bool
  slotFreed : Bool
  evaluated : Bool
  expiryTaken : PerPort Bool
  expiryLeft : PerPort (Option Word)
  openedAt : PerPort (Option Nat)
  cutRequest : Option CutRequest
  freeUses : Nat
  deriving DecidableEq, Repr

/-- The model's own fields at reset. DESIGN CHOICE (log entry 6). -/
def Aux.initial : Aux :=
  { choiceDue := PerPort.fill false, slotFreed := false, evaluated := false, expiryTaken := PerPort.fill false,
    expiryLeft := PerPort.fill none, openedAt := PerPort.fill none, cutRequest := none, freeUses := 0 }

/-- The state of the gate. -/
structure State where
  resetHeld : Bool
  lock : Bool
  straps : Straps
  clock : Clock
  sync : SyncRecord
  trunkCount : TrunkCounters
  cfg : ConfigUnit
  classifier : Classifier
  ports : PerPort PortUnit
  store : FrameStore
  own : List OwnFrame
  control : Option ControlFrame
  mgmt : Management
  events : EventUnit
  aux : Aux
  pending : List Instr
  deriving DecidableEq, Repr

/-- The parameters after power-on (R42). -/
def Params.powerOn (policy : Policy) : Params :=
  { cycleLength := 12500, syncOffset := 512, halfWidth := 256, lockTolerance := 4, stepThreshold := 64,
    holdoverLimit := 8, policy := policy, retransmitTime := 20 }

/-- The configuration of generation 0 (R43, 10.2). -/
def Configuration.powerOn (policy : Policy) : Configuration :=
  { streams := [], windows := [], params := .powerOn policy }

/-- The station number the strap pins give (R162). -/
def stationOf (straps : Byte) : Byte := if straps = 0 ∨ straps = 255 then 254 else straps

/-- The policy the FALLBACK strap gives: low PASS, high BLOCK (R163). -/
def strapPolicy (high : Bool) : Policy := if high then .block else .pass

/-- Every block in its power-on state, right after the release of RESET_N with these straps and links (R164); the commands
in `waiting` still wait. -/
def State.powerOn (straps : Byte) (fallbackHigh : Bool) (links : PerPort Bool) (waiting : List Instr) : State :=
  { resetHeld := false
    lock := false
    straps := { station := stationOf straps, policy := strapPolicy fallbackHigh }
    clock := { timer := 0, number := 0, cycleEnd := 12500, elapsed := 0 }
    sync := .initial
    trunkCount := .zero
    cfg :=
      { active := .powerOn (strapPolicy fallbackHigh), staged := .powerOn (strapPolicy fallbackHigh),
        generation := 0, armed := none, edited := false }
    classifier := { records := [], unknownMarks := PerPort.fill none }
    ports := links.map PortUnit.powerOn
    store := { free := Config.poolBlocks, frames := [] }
    own := []
    control := none
    mgmt := { slots := Quad.fill none, restartPending := false }
    events := .powerOn
    aux := .initial
    pending := waiting }

/-- The machine right after reset (R164). The manual leaves the input pins to the installation: DESIGN CHOICE (log entry 3),
every input pin low, so S is 254, the policy PASS and every link DOWN. `Instr.resetRelease` gives any other. -/
def State.reset : State := State.powerOn 0 false (PerPort.fill false) []

/-! ### Why a step can stop -/

/-- A fault. The manual names no condition that stops the gate, and no meaning of this model raises a fault. -/
inductive Fault where
  deriving DecidableEq, Repr

/-- A refusal. -/
inductive Refusal where
  /-- Raised by an arm of `exec` for a command that has no meaning yet. Safe: nothing is claimed of it. No arm of this
  model raises it. -/
  | notModelled (mnemonic : String)
  deriving DecidableEq, Repr

/-! ### Updates -/

/-- Change one port's unit. -/
def State.onPort (s : State) (p : Port) (f : PortUnit → PortUnit) : State :=
  { s with ports := s.ports.set p (f (s.ports.get p)) }

/-- Change one port's counters. -/
def State.onCount (s : State) (p : Port) (f : PortCounters → PortCounters) : State :=
  s.onPort p fun u => { u with count := f u.count }

/-- Put other values in the clocks. -/
def State.setClock (s : State) (c : Clock) : State := { s with clock := c }

/-- Put another sync record in the cycle timer unit. -/
def State.setSync (s : State) (r : SyncRecord) : State := { s with sync := r }

/-- Put other values in the trunk sync counters. -/
def State.setTrunk (s : State) (k : TrunkCounters) : State := { s with trunkCount := k }

/-- Put other state in the configuration unit. -/
def State.setCfg (s : State) (c : ConfigUnit) : State := { s with cfg := c }

/-- Put other state in the classifier. -/
def State.setClassifier (s : State) (c : Classifier) : State := { s with classifier := c }

/-- Put another frame in the control buffer, or none. -/
def State.setControl (s : State) (c : Option ControlFrame) : State := { s with control := c }

/-- Put other values in the model's own fields. -/
def State.setAux (s : State) (a : Aux) : State := { s with aux := a }

/-- Put other state in the event unit. -/
def State.setEvents (s : State) (e : EventUnit) : State := { s with events := e }

/-- Put other sessions in the slots. -/
def State.setSlots (s : State) (q : Quad (Option Session)) : State := { s with mgmt := { s.mgmt with slots := q } }

/-- Put other records in the classifier. -/
def State.setRecords (s : State) (rs : List StreamRecord) : State :=
  s.setClassifier { s.classifier with records := rs }

/-- Put other contents in the frame store. -/
def State.setStore (s : State) (x : FrameStore) : State := { s with store := x }

/-- Put other frames in the own queue. -/
def State.setOwn (s : State) (q : List OwnFrame) : State := { s with own := q }

/-- Note that an event of R11 asks the egress unit of this port for a choice. -/
def State.prompt (s : State) (p : Port) : State :=
  s.setAux { s.aux with choiceDue := s.aux.choiceDue.set p true }

/-- Note that an own-frame slot has been freed and is on offer: a response of the same instant may take it before the event unit
does (R79, log entry 27). -/
def State.offerSlot (s : State) : State := s.setAux { s.aux with slotFreed := true }

/-- Note that an event of R11 asks every egress unit for a choice. -/
def State.promptAll (s : State) : State := s.setAux { s.aux with choiceDue := PerPort.fill true }

end Sys2Proof.Machine
end

