-- ==== Sys2Proof/Machine/Operands.lean ====
section
/-! DEFINITION. The wire forms of chapter 11: byte order, the frame check, headers, and the encodings of ports, sets, states,
notices and configuration objects. -/

namespace Sys2Proof.Machine

open Sys2Proof

/-! ### Byte order: most significant byte first ("Conventions") -/

/-- The two bytes of a field. -/
def be16 (x : Half) : List Byte := [x.extractLsb' 8 8, x.extractLsb' 0 8]

/-- The four bytes of a field. -/
def be32 (x : Word) : List Byte :=
  [x.extractLsb' 24 8, x.extractLsb' 16 8, x.extractLsb' 8 8, x.extractLsb' 0 8]

/-- A number in a one-byte field. -/
def byteOf (n : Nat) : Byte := BitVec.ofNat 8 n

/-- A number in a two-byte field. -/
def halfOf (n : Nat) : Half := BitVec.ofNat 16 n

/-- A number in a four-byte field. -/
def wordOf (n : Nat) : Word := BitVec.ofNat 32 n

/-- A signed number in a four-byte field. -/
def wordOfInt (n : Int) : Word := BitVec.ofInt 32 n

/-- A yes-or-no field. DEDUCED (log entry 7): 1 for yes, as 11.2 states for "outstanding". -/
def flagByte (b : Bool) : Byte := if b then 1 else 0

/-- The byte at a place of a body; 0 past its end, where no rule reads it. -/
def byteAt (bs : List Byte) (i : Nat) : Byte := bs.getD i 0

/-- The two-byte field at a place of a body. -/
def halfAt (bs : List Byte) (i : Nat) : Half := byteAt bs i ++ byteAt bs (i + 1)

/-- The four-byte field at a place of a body. -/
def wordAt (bs : List Byte) (i : Nat) : Word := halfAt bs i ++ halfAt bs (i + 2)

/-! ### The frame check (R166) -/

/-- The generator of R166 less its leading term. -/
def crcGenerator : Word := 0x04C11DB7

/-- One bit enters the register (R166). -/
def crcShift (r : Word) : Word := if r.msb then (r <<< 1) ^^^ crcGenerator else r <<< 1

/-- One byte enters the register, most significant bit first (R166). -/
def crcByte (r : Word) (b : Byte) : Word := Nat.repeat crcShift 8 (r ^^^ (b.setWidth 32 <<< 24))

/-- Bytes enter the register one after another. -/
def crcBytes (r : Word) (bs : List Byte) : Word := bs.foldl crcByte r

/-- The register before the first byte (R166). -/
def crcPreset : Word := 0xFFFFFFFF

/-- The four bytes sent as the frame check of these bytes (R166). -/
def frameCheck (bs : List Byte) : List Byte := be32 (~~~(crcBytes crcPreset bs))

/-! ### The header (11.1) -/

/-- The ten bytes of a header. -/
def headerBytes (h : Header) : List Byte :=
  [h.destination, h.source, h.kind, h.hopLimit] ++ be16 h.streamField ++ be16 h.length ++ be16 h.tag

/-- The stream number: the low 12 bits of its field (R167). -/
def streamNo (h : Header) : StreamNo := h.streamField.extractLsb' 0 12

/-- The header with the hop limit lowered by one, as stored at acceptance (R35). -/
def lowerHop (h : Header) : Header := { h with hopLimit := h.hopLimit - 1 }

/-- The kind of a data frame on the wire (11.1). -/
def kindData : Byte := 0x01
/-- The kind of a sync frame on the wire (11.1). -/
def kindSync : Byte := 0x02
/-- The kind of a management request on the wire (11.1). -/
def kindMreq : Byte := 0x03
/-- The kind of a management response on the wire (11.1). -/
def kindMrsp : Byte := 0x04
/-- The kind of an event report on the wire (11.1). -/
def kindEvent : Byte := 0x05

/-- Whether a kind is one of the five (R106). -/
def knownKind (k : Byte) : Bool :=
  k = kindData || k = kindSync || k = kindMreq || k = kindMrsp || k = kindEvent

/-- The hop limit of the frames the gate originates (R106). -/
def originHop : Byte := 16

/-- The header of a frame the gate originates: hop limit 16, stream 0 (R106). -/
def originHeader (destination source kind : Byte) (length : Nat) (tag : Half) : Header :=
  { destination := destination, source := source, kind := kind, hopLimit := originHop, streamField := 0,
    length := halfOf length, tag := tag }

/-! ### Ports and sets (11.2, "Common encodings") -/

/-- The value of a port. -/
def portCode : Port → Byte
  | .t => 0
  | .b0 => 1
  | .b1 => 2
  | .b2 => 3
  | .b3 => 4

/-- The port a value names, if it names one. -/
def portOf (b : Byte) : Option Port := Port.all.find? fun p => portCode p = b

/-- Whether bit `n` of a byte is set. -/
def bitOf (b : Byte) (n : Nat) : Bool := b.getLsbD n

/-- The port set of a byte: bit n for the port of value n. -/
def portSetOf (b : Byte) : PerPort Bool := ⟨bitOf b 0, bitOf b 1, bitOf b 2, bitOf b 3, bitOf b 4⟩

/-- The byte of a port set. -/
def portSetByte (x : PerPort Bool) : Byte :=
  byteOf (x.t.toNat + 2 * x.b0.toNat + 4 * x.b1.toNat + 8 * x.b2.toNat + 16 * x.b3.toNat)

/-- The class set of a byte: bit n for class n. -/
def classSetOf (b : Byte) : Quad Bool := ⟨bitOf b 0, bitOf b 1, bitOf b 2, bitOf b 3⟩

/-- The byte of a class set. -/
def classSetByte (x : Quad Bool) : Byte :=
  byteOf (x.q0.toNat + 2 * x.q1.toNat + 4 * x.q2.toNat + 8 * x.q3.toNat)

/-- The report set of a byte: bit 0 POLICED, bit 1 LATE, bit 2 OVERSIZE. -/
def reportSetOf (b : Byte) : ReportSet := { policed := bitOf b 0, late := bitOf b 1, oversize := bitOf b 2 }

/-- The byte of a report set. -/
def reportSetByte (x : ReportSet) : Byte := byteOf (x.policed.toNat + 2 * x.late.toNat + 4 * x.oversize.toNat)

/-- The class of a value below 4. -/
def classOf (b : Byte) : Fin 4 := Fin.ofNat 4 b.toNat

/-- A policy on the wire. -/
def policyByte : Policy → Byte
  | .pass => 0
  | .block => 1

/-- A session mode on the wire. -/
def sessionModeByte : SessionMode → Byte
  | .observe => 0
  | .edit => 1

/-- An admin state on the wire. -/
def adminByte : Admin → Byte
  | .opened => 0
  | .draining => 1
  | .drained => 2

/-- A link state on the wire. -/
def linkByte (up : Bool) : Byte := if up then 1 else 0

/-- A drain option on the wire. -/
def drainOptionByte : DrainOption → Byte
  | .flush => 0
  | .empty => 1

/-- A sync state on the wire. -/
def syncStateByte : SyncState → Byte
  | .unsynced => 0
  | .acquiring => 1
  | .locked => 2
  | .holdover => 3

/-! ### Notices (11.3) -/

/-- Every kind, in the order of the codes. -/
def NoticeKind.all : List NoticeKind :=
  [.syncState, .cycleMismatch, .commitDone, .linkChange, .drainDone, .streamPoliced, .streamOversize, .streamLate,
    .unknownStream, .poolExhausted, .sessionExpired, .sinkLost, .restarted, .overflow]

/-- The code of a kind. -/
def noticeCode : NoticeKind → Nat
  | .syncState => 1
  | .cycleMismatch => 2
  | .commitDone => 3
  | .linkChange => 4
  | .drainDone => 5
  | .streamPoliced => 6
  | .streamOversize => 7
  | .streamLate => 8
  | .unknownStream => 9
  | .poolExhausted => 10
  | .sessionExpired => 11
  | .sinkLost => 12
  | .restarted => 13
  | .overflow => 14

/-- The sixteen bits of an overflow set: bit k − 1 for kind k. -/
def overflowBits (ks : List NoticeKind) : Half :=
  ks.foldl (fun acc k => acc ||| (1 <<< (noticeCode k - 1))) 0

/-- The stream field of a notice; a frame of stream 0 leaves it absent (R167). -/
def noticeStream (n : StreamNo) : Option StreamNo := if n = 0 then none else some n

/-- The detail of DRAIN_DONE: the reason (0 COMPLETE, 1 LINK) above the flushed count. -/
def drainDetail (byLink : Bool) (flushed : Nat) : Word :=
  (if byLink then (1 : Byte) else 0) ++ BitVec.ofNat 24 flushed

/-- The detail of OVERFLOW: the overflow set above the lost count. -/
def overflowDetail (ks : List NoticeKind) (lost : Nat) : Word := overflowBits ks ++ halfOf lost

/-- The fourteen bytes of a notice. -/
def noticeBytes (n : Notice) : List Byte :=
  be16 n.sequence ++ [byteOf (noticeCode n.kind)] ++ [(n.port.map portCode).getD 0xFF] ++
    be16 ((n.stream.map fun x => x.setWidth 16).getD 0) ++ be32 n.cycle ++ be32 n.detail

/-- The payload of a report: the count, then the notices. -/
def reportPayload (ns : List Notice) : List Byte := byteOf ns.length :: (ns.map noticeBytes).flatten

/-! ### Configuration objects (11.2) -/

/-- The eight fields of a stream entry: ten bytes. -/
def streamBytes (e : StreamEntry) : List Byte :=
  be16 (e.stream.setWidth 16) ++ [portCode e.ingress, portSetByte e.egress, byteOf e.cls.val] ++
    be16 (halfOf e.maxPayload) ++ [byteOf e.budget, byteOf e.lifetime, reportSetByte e.report]

/-- The four fields of a window: ten bytes. -/
def windowBytes (w : Window) : List Byte :=
  [portCode w.port] ++ be32 (wordOf w.start) ++ be32 (wordOf w.length) ++ [classSetByte w.classes]

/-- The eight parameters in presence-mask order: sixteen bytes. -/
def paramsBytes (p : Params) : List Byte :=
  be32 (wordOf p.cycleLength) ++ be32 (wordOf p.syncOffset) ++ be16 (halfOf p.halfWidth) ++ [byteOf p.lockTolerance] ++
    be16 (halfOf p.stepThreshold) ++ [byteOf p.holdoverLimit, policyByte p.policy, byteOf p.retransmitTime]

/-! ### Statuses (11.2) -/

/-- The status codes of R141. -/
inductive Status where
  | ok | armed | disarmed | tooLate | noSession | sequence | mode | claimed | full | invalid | range | notFound
  | tableFull | busyArmed | badRequest | portState
  deriving DecidableEq, Repr

/-- The value of a status. -/
def statusByte : Status → Byte
  | .ok => 0x00
  | .armed => 0x01
  | .disarmed => 0x02
  | .tooLate => 0x03
  | .noSession => 0x10
  | .sequence => 0x11
  | .mode => 0x12
  | .claimed => 0x13
  | .full => 0x14
  | .invalid => 0x20
  | .range => 0x21
  | .notFound => 0x22
  | .tableFull => 0x23
  | .busyArmed => 0x24
  | .badRequest => 0x30
  | .portState => 0x31

/-! ### Frames on the wire -/

/-- The header of an own frame (R77, R141, R155). -/
def OwnFrame.header (f : OwnFrame) : Header :=
  originHeader f.destination f.source (match f.kind with | .response => kindMrsp | .report => kindEvent)
    f.payload.length f.tag

/-- The header and payload of a branch sync frame (R101). -/
def syncFrameBytes (source : Byte) (number : Word) (cycleLength : Nat) : List Byte :=
  headerBytes (originHeader 255 source kindSync 8 0) ++ be32 number ++ be32 (wordOf cycleLength)

/-- The start sequence (11.1). -/
def startSequence : List Byte := [0xAA, 0xAA, 0xAA, 0x4B]

/-- Header and payload of the frame a transmitter carries. -/
def txFrameBytes (store : FrameStore) : TxFrame → List Byte
  | .data d => ((store.frames.find? fun f => f.ref = d.frame).map (·.bytes)).getD []
  | .own f => headerBytes f.header ++ f.payload
  | .sync source number len => syncFrameBytes source number len

/-- What a transmitter puts on the line: the start sequence, the frame's bytes, and the frame check computed over them as
sent (R67, R77, R166). -/
def wireImage (store : FrameStore) (f : TxFrame) : List Byte :=
  startSequence ++ txFrameBytes store f ++ frameCheck (txFrameBytes store f)

end Sys2Proof.Machine
end

