-- ==== Sys2Proof/Machine/Flags.lean ====
section
/-! DEFINITION. What the gate reads off its state: serial comparison, the enforcing condition and the egress mode, open windows,
report marks, lookups, and the configuration of the cycle that begins. -/

namespace Sys2Proof.Machine

open Sys2Proof

/-! ### Serial comparison ("Conventions") -/

/-- `a` is later than `b`: (a − b) modulo 2^w lies between 1 and 2^(w−1) − 1. -/
def later {w : Nat} (a b : BitVec w) : Bool := 1 ≤ (a - b).toNat && (a - b).toNat ≤ 2 ^ (w - 1) - 1

/-- `a` is earlier than `b`: `b` is later than `a`. -/
def earlier {w : Nat} (a b : BitVec w) : Bool := later b a

/-! ### The enforcing condition and the mode -/

/-- The condition of R99. -/
def State.enforcing (s : State) : Bool :=
  (s.sync.state = .locked || s.sync.state = .holdover) && s.cfg.generation ≠ 0

/-- The mode of the egress units (R7). -/
inductive Mode where
  | enforcing | pass | block
  deriving DecidableEq, Repr

/-- The mode at this instant (R7). -/
def State.mode (s : State) : Mode :=
  if s.enforcing then .enforcing
  else
    match s.cfg.active.params.policy with
    | .pass => .pass
    | .block => .block

/-! ### Windows -/

/-- The end of a window (R1). -/
def Window.stop (w : Window) : Nat := w.start + w.length

/-- The windows of a port in start order; their places are the per-port indices (R1). -/
def portWindows (c : Configuration) (p : Port) : List Window := c.windows.filter fun w => w.port = p

/-- Whether the opening that falls at this instant has been taken at a port (R3, R103). -/
def State.openingTaken (s : State) (p : Port) : Bool := s.aux.openedAt.get p = some s.clock.elapsed

/-- The open window of a port (R3): the timer has passed its start and not reached its end. At the value of its start it is
open once its opening has been taken, since a choice taken before the opening at that instant finds no window yet open (R103). -/
def State.openWindow (s : State) (p : Port) : Option Window :=
  (portWindows s.cfg.active p).find? fun w =>
    (w.start < s.clock.timer || w.start = s.clock.timer && s.openingTaken p) && s.clock.timer < w.stop

/-- The active window of this key (R1). -/
def State.windowAt (s : State) (p : Port) (start : Nat) : Option Window :=
  (portWindows s.cfg.active p).find? fun w => w.start = start

/-- The classes of a class set, in order. -/
def classesOf (x : Quad Bool) : List (Fin 4) := [0, 1, 2, 3].filter fun c => x.get c

/-! ### Ports -/

/-- Whether the transmitter is IDLE (R8). -/
def Transmitter.isIdle : Transmitter → Bool
  | .idle => true
  | .busy _ _ _ => false

/-- Whether all four class queues are empty. -/
def PortUnit.queuesEmpty (u : PortUnit) : Bool := u.queues.toList.all fun q => q.isEmpty

/-- The number of descriptors in the four class queues. -/
def PortUnit.queued (u : PortUnit) : Nat := (u.queues.toList.map (·.length)).sum

/-- The own-frame slots taken: a frame keeps its slot until its transmission ends (R77). -/
def State.slotsTaken (s : State) : Nat :=
  s.own.length + (match s.ports.t.tx with | .busy (.own _) _ _ => 1 | _ => 0)

/-- Whether an own-frame slot is free (R77). -/
def State.slotFree (s : State) : Bool := s.slotsTaken < Config.ownSlots

/-! ### Lookups -/

/-- The entry of a stream number (R23). -/
def streamEntry (c : Configuration) (n : StreamNo) : Option StreamEntry := c.streams.find? fun e => e.stream = n

/-- The run-time record of a stream number (R24). -/
def streamRecord (rs : List StreamRecord) (n : StreamNo) : Option StreamRecord := rs.find? fun r => r.stream = n

/-- A record changed where it stands. -/
def updateRecord (n : StreamNo) (f : StreamRecord → StreamRecord) (rs : List StreamRecord) : List StreamRecord :=
  rs.map fun r => if r.stream = n then f r else r

/-- Whether a mark is in effect at a cycle number (R26). -/
def inEffect (mark : Option Word) (cycle : Word) : Bool := mark = some cycle

/-- The slot of a station's session (R133). -/
def sessionSlot (q : Quad (Option Session)) (station : Byte) : Option (Fin 4) :=
  [0, 1, 2, 3].find? fun i => (q.get i).any fun x => x.station = station

/-- The lowest-numbered free slot (R133). -/
def freeSlot (q : Quad (Option Session)) : Option (Fin 4) := [0, 1, 2, 3].find? fun i => (q.get i).isNone

/-- The station that holds EDIT (R133). -/
def editStation (q : Quad (Option Session)) : Option Byte :=
  (q.toList.filterMap id |>.find? fun x => x.mode = .edit).map (·.station)

/-! ### The cycle that begins -/

/-- Whether the armed commit is due at a cycle number: not earlier than its target (R54). -/
def swapDue (c : ConfigUnit) (n : Word) : Bool :=
  match c.armed with
  | none => false
  | some target => !earlier n target

/-- The configuration active for the cycle of number `n`, once the swap that is due there has been taken
("Configuration references"). -/
def cycleConfig (c : ConfigUnit) (n : Word) : Configuration := if swapDue c n then c.staged else c.active

/-- A descriptor is live at a cycle number when its deadline is not earlier (R15). -/
def Descriptor.live (d : Descriptor) (n : Word) : Bool := !earlier d.deadline n

/-- The occupancy of a frame with a payload of `p` bytes (R8). -/
def occupancy (p : Nat) : Nat := p + Config.frameOverhead

/-- The block need of a declared payload length (R65). -/
def blockNeed (declared : Nat) : Nat := (declared + 10 + 63) / 64

/-! ### Notices -/

/-- The ordinary notices of a queue: all but OVERFLOW (R151). -/
def ordinaryCount (q : List QueuedNotice) : Nat := (q.filter fun x => x.notice.kind ≠ .overflow).length

/-- Whether an OVERFLOW notice is queued. -/
def overflowInQueue (q : List QueuedNotice) : Bool := q.any fun x => x.notice.kind = .overflow

/-- The SENT notices of a queue, oldest first. -/
def sentNotices (q : List QueuedNotice) : List Notice := (q.filter (·.sent)).map (·.notice)

/-- The UNSENT notices of a queue, oldest first. -/
def unsentNotices (q : List QueuedNotice) : List Notice := (q.filter fun x => !x.sent).map (·.notice)

/-- The overflow set with one more kind. -/
def addKind (k : NoticeKind) (ks : List NoticeKind) : List NoticeKind :=
  NoticeKind.all.filter fun x => x = k || ks.contains x

end Sys2Proof.Machine
end

