-- ==== Sys2Proof/Machine/Ops.lean ====
section
/-! DEFINITION. The shared operations on the blocks' state: raising notices, releasing references, late descriptors, flushes, own
frames, the sink, sessions, the enforcing condition, and the marks. -/

namespace Sys2Proof.Machine

open Sys2Proof

/-! ### Event unit -/

/-- A raised notice is queued with the next sequence number, or lost into the overflow set (R152). -/
def EventUnit.raise (e : EventUnit) (kind : NoticeKind) (port : Option Port) (stream : Option StreamNo) (cycle : Word)
    (detail : Word) : EventUnit :=
  if e.overflowSet = [] ∧ ordinaryCount e.queue < Config.ordinaryNotices then
    { e with
      queue := e.queue ++ [{ notice := ⟨e.lastAssigned + 1, kind, port, stream, cycle, detail⟩, sent := false }]
      lastAssigned := e.lastAssigned + 1 }
  else
    { e with overflowSet := addKind kind e.overflowSet, lostCount := min (e.lostCount + 1) 65535 }

/-- A block raises a notice at a cycle number (R148). -/
def State.raiseAt (s : State) (kind : NoticeKind) (port : Option Port) (stream : Option StreamNo) (cycle : Word)
    (detail : Word) : State :=
  s.setEvents (s.events.raise kind port stream cycle detail)

/-- A block raises a notice at the current cycle number (R148). -/
def State.raise (s : State) (kind : NoticeKind) (port : Option Port) (stream : Option StreamNo) (detail : Word) : State :=
  s.raiseAt kind port stream s.clock.number detail

/-- The event unit takes the frame store's report of a failed claim (R150). -/
def State.reportExhausted (s : State) (p : Port) (free : Nat) : State :=
  if inEffect s.events.poolMark s.clock.number then s
  else
    let t := s.raise .poolExhausted (some p) none (wordOf free)
    t.setEvents { t.events with poolMark := some s.clock.number }

/-- Every SENT notice returns to UNSENT, and the outstanding report and its timer are gone (R154, R157). -/
def EventUnit.unsend (e : EventUnit) : EventUnit :=
  { e with queue := e.queue.map fun x => { x with sent := false }, report := none, timer := none }

/-- Where a report is outstanding, its notices return to UNSENT (R154). -/
def EventUnit.dropReport (e : EventUnit) : EventUnit := if e.report.isSome then e.unsend else e

/-- The sink is cleared (R154). -/
def State.clearSink (s : State) : State := s.setEvents { s.events.dropReport with sink := none }

/-! ### Stream records -/

/-- Change a run-time record where the stream has one. -/
def State.onRecord (s : State) (n : StreamNo) (f : StreamRecord → StreamRecord) : State :=
  s.setRecords (updateRecord n f s.classifier.records)

/-! ### Frame store -/

/-- One reference of a frame is handed back; the frame whose count reaches 0 is no longer stored. The second component is
the number of its blocks (R67). -/
def releaseIn (ref : Nat) : List StoredFrame → List StoredFrame × Nat
  | [] => ([], 0)
  | f :: fs =>
    if f.ref = ref then if f.count ≤ 1 then (fs, f.blocks) else ({ f with count := f.count - 1 } :: fs, 0)
    else (f :: (releaseIn ref fs).1, (releaseIn ref fs).2)

/-- One reference of a frame is handed back, and blocks that it frees return to the pool (R67). -/
def FrameStore.release (x : FrameStore) (ref : Nat) : FrameStore :=
  { free := x.free + (releaseIn ref x.frames).2, frames := (releaseIn ref x.frames).1 }

/-- A descriptor hands back its frame's reference. -/
def State.release (s : State) (d : Descriptor) : State := s.setStore (s.store.release d.frame)

/-- A frame reference no stored frame has. -/
def FrameStore.freshRef (x : FrameStore) : Nat := (x.frames.map (·.ref)).foldl max 0 + 1

/-- Blocks a receiver held return to the pool (R66). -/
def State.returnBlocks (s : State) (n : Nat) : State := s.setStore { s.store with free := s.store.free + n }

/-! ### Late descriptors (R73, R74) -/

/-- The accounting of one expired descriptor of a port, under the configuration `c`: the reference, the port's LATE and,
where the stream has an entry, the stream's LATE (R73). DESIGN CHOICE (log entry 11): where an expiry taken ahead of a swap finds a stream that
only the incoming table holds, no record of it exists yet, so no stream LATE is counted; the record starts at 0 at the swap (R27). -/
def State.countLate (s : State) (c : Configuration) (p : Port) (d : Descriptor) : State :=
  let t := (s.release d).onCount p fun k => { k with late := k.late + 1 }
  if (streamEntry c d.stream).isSome then t.onRecord d.stream fun r => { r with late := r.late + 1 } else t

/-- The report of a stream's expired descriptors at a port: raised for a flagged descriptor, of a stream with an entry,
whose LATE mark is not in effect at the cycle number; the mark is set (R74). A stream without a record, as one that an expiry taken ahead of a
swap meets and only the incoming table holds, is not reported (log entry 11). -/
def State.reportLate (s : State) (c : Configuration) (p : Port) (n : StreamNo) (flagged : Bool) (cycle : Word)
    (removed : Nat) : State :=
  match streamRecord s.classifier.records n with
  | none => s
  | some r =>
    if flagged ∧ (streamEntry c n).isSome ∧ ¬inEffect r.lateMark cycle then
      (s.raiseAt .streamLate (some p) (noticeStream n) cycle (wordOf removed)).onRecord n
        fun r => { r with lateMark := some cycle }
    else s

/-- The stream numbers of some descriptors, each once, in order of first appearance. -/
def streamsOf : List Descriptor → List StreamNo
  | [] => []
  | d :: ds => d.stream :: (streamsOf ds).filter fun n => n ≠ d.stream

/-- Whether expiry at a cycle number removes the head of a queue and leaves another descriptor at the head (R11, R73). -/
def headExpires (n : Word) (q : List Descriptor) : Bool :=
  (q.head?.any fun d => !d.live n) && q.any fun d => d.live n

/-- Lifetime expiry of one egress unit at the natural cycle start of number `n` (R73, R74). -/
def State.expirePort (s : State) (n : Word) (p : Port) : State :=
  let c := cycleConfig s.cfg n
  let u := s.ports.get p
  let gone := (u.queues.map fun q => q.filter fun d => !d.live n).toList.flatten
  let t := s.onPort p fun u => { u with queues := u.queues.map fun q => q.filter fun d => d.live n }
  let t := if u.queues.toList.any (headExpires n) then t.prompt p else t
  let t := gone.foldl (fun t d => t.countLate c p d) t
  (streamsOf gone).foldl
    (fun t m =>
      t.reportLate c p m (gone.any fun d => d.stream = m && d.reportLate) n (gone.filter fun d => d.stream = m).length) t

/-! ### Flushes (R76) -/

/-- The four class queues of a port are emptied, and every descriptor hands back its reference. -/
def State.flushQueues (s : State) (p : Port) : State :=
  (s.ports.get p).queues.toList.flatten.foldl (fun t d => t.release d)
    (s.onPort p fun u => { u with queues := Quad.fill [] })

/-- A transmission is cut off: the transmitter is IDLE, and a data frame's descriptor hands back its reference (R9, R72).
The slot of an own frame is free from then on, since only its transmitter held it. -/
def State.cutOff (s : State) (p : Port) : State :=
  let t := s.onPort p fun u => { u with tx := .idle }
  match (s.ports.get p).tx with
  | .busy (.data d) _ _ => t.release d
  | _ => t

/-- A reception is abandoned: its held blocks return, and the receiver is IDLE (R66, R117). On T the control buffer is
emptied. -/
def State.abandon (s : State) (p : Port) : State :=
  let t := (s.onPort p fun u => { u with rx := .rest }).returnBlocks (s.ports.get p).rx.held
  if p = .t then t.setControl none else t

/-! ### Own frames (R77, R78) -/

/-- An own frame is appended where a slot is free. An append to the empty own queue asks T for a choice (R11). -/
def State.appendOwn (s : State) (f : OwnFrame) : State :=
  let t := s.setOwn (s.own ++ [f])
  if s.own.isEmpty then t.prompt .t else t

/-! ### Enforcing and marks -/

/-- The enforcing condition is re-evaluated: LOCK follows it, and where it changes every egress unit is asked for a choice
(R99, R100). -/
def State.reevaluate (s : State) : State :=
  if s.enforcing = s.lock then s else { s with lock := s.enforcing }.promptAll

/-- The sync state changes: where it is another, one SYNC_STATE notice at the current cycle number, and the enforcing
condition is re-evaluated (R96). -/
def State.setSyncState (s : State) (x : SyncState) : State :=
  if s.sync.state = x then s
  else
    ((s.setSync { s.sync with state := x }).raise .syncState none none ((syncStateByte x).setWidth 32)).reevaluate

/-- A mark kept only while it holds this cycle number (R26). -/
def keepMark (n : Word) (m : Option Word) : Option Word := if m = some n then m else none

/-- The marks of a record that do not hold this cycle number are cleared (R26). -/
def StreamRecord.keepMarks (n : Word) (r : StreamRecord) : StreamRecord :=
  { r with policedMark := keepMark n r.policedMark, oversizeMark := keepMark n r.oversizeMark,
           lateMark := keepMark n r.lateMark }

/-- The classifier's marks that do not hold this cycle number are cleared (R26). -/
def Classifier.keepMarks (n : Word) (c : Classifier) : Classifier :=
  { records := c.records.map (StreamRecord.keepMarks n), unknownMarks := c.unknownMarks.map (keepMark n) }

/-- The budget of every active entry is refilled, and its policed-this-cycle count is 0 (R25). -/
def refill (c : Configuration) (rs : List StreamRecord) : List StreamRecord :=
  rs.map fun r => { r with budgetRemaining := ((streamEntry c r.stream).map (·.budget)).getD 0, policedNow := 0 }

/-- The record of an entry with every counter at 0, its budget, and no marks (R27, R28). -/
def freshRecord (e : StreamEntry) : StreamRecord :=
  { stream := e.stream, budgetRemaining := e.budget, policedNow := 0, received := 0, forwarded := 0, policed := 0,
    oversize := 0, noQueue := 0, late := 0, policedMark := none, oversizeMark := none, lateMark := none }

/-! ### Sessions and the configuration unit -/

/-- The staged copy is made an equal copy of the active one, and the edited mark is clear (R43). -/
def State.discardStaged (s : State) : State :=
  s.setCfg { s.cfg with staged := s.cfg.active, edited := false }

/-- The session in a slot ends (R138): its slot is free, an EDIT session takes unarmed staged work with it (R60), and the
sink it held is cleared. -/
def State.endSession (s : State) (i : Fin 4) : State :=
  match s.mgmt.slots.get i with
  | none => s
  | some x =>
    let t := s.setSlots (s.mgmt.slots.set i none)
    let t := if x.mode = .edit ∧ s.cfg.armed = none then t.discardStaged else t
    if x.sink then t.clearSink else t

/-- A station becomes the sink (R137, R154): its session holds the only sink flag, and where the sink was another, SENT
notices return to UNSENT. -/
def State.setSink (s : State) (station : Byte) : State :=
  let t := s.setSlots (s.mgmt.slots.map fun x => x.map fun y => { y with sink := y.station = station })
  if s.events.sink = some station then t
  else t.setEvents { s.events.dropReport with sink := some station }

/-- The fields the manual names without a value for this use carry free values (log entry 6): `n` bytes of them. -/
def State.freeBytes (s : State) (n : Nat) : List Byte := (List.range n).map fun i => Config.freeByte (s.aux.freeUses + i)

/-- The state after using `n` free values. -/
def State.useFree (s : State) (n : Nat) : State := s.setAux { s.aux with freeUses := s.aux.freeUses + n }

end Sys2Proof.Machine
end

