-- ==== Sys2Proof/Machine/Choice.lean ====
section
/-! DEFINITION. The choice of an egress unit (R11 to R18), and the steps that follow from an event within it: choices, drain
completion, the OVERFLOW notice, due retransmissions and reports. -/

namespace Sys2Proof.Machine

open Sys2Proof

/-! ### The choice -/

/-- Non-live heads of a class queue are removed, each with the accounting of expiry (R15, R74). -/
def State.dropStale (s : State) (p : Port) (c : Fin 4) : State :=
  let q := (s.ports.get p).queues.get c
  let stale := q.takeWhile fun d => !d.live s.clock.number
  let t := s.onPort p fun u => { u with queues := u.queues.set c (q.dropWhile fun d => !d.live s.clock.number) }
  stale.foldl
    (fun t d =>
      (t.countLate s.cfg.active p d).reportLate s.cfg.active p d.stream d.reportLate s.clock.number 1) t

/-- The head of a class queue is started: it becomes the in-flight descriptor (R70). -/
def State.startData (s : State) (p : Port) (c : Fin 4) (d : Descriptor) (rest : List Descriptor) : State :=
  s.onPort p fun u =>
    { u with queues := u.queues.set c rest, tx := .busy (.data d) (occupancy d.length) (occupancy d.length) }

/-- The class queues are examined in order, and the first live head that fits is started (R12, R17). -/
def State.tryClasses (fits : Nat → Bool) (p : Port) : List (Fin 4) → State → State
  | [], s => s
  | c :: cs, s =>
    let t := s.dropStale p c
    match (t.ports.get p).queues.get c with
    | [] => t.tryClasses fits p cs
    | d :: rest => if fits (occupancy d.length) then t.startData p c d rest else t.tryClasses fits p cs

/-- The head of the own queue is started (R80). -/
def State.startOwn (s : State) (f : OwnFrame) (rest : List OwnFrame) : State :=
  (s.setOwn rest).onPort .t fun u =>
    { u with tx := .busy (.own f) (occupancy f.payload.length) (occupancy f.payload.length) }

/-- The candidates are examined: on T the own queue where `own` admits it, then the class queues (R12, R17, R18). -/
def State.serve (s : State) (fits : Nat → Bool) (own : Bool) (classes : List (Fin 4)) (p : Port) : State :=
  match s.own with
  | [] => s.tryClasses fits p classes
  | f :: rest =>
    if p = .t ∧ own ∧ fits (occupancy f.payload.length) then s.startOwn f rest else s.tryClasses fits p classes

/-- An egress unit makes a choice: its transmitter IDLE and its link UP, it starts at most one frame under its mode (R7,
R11 to R18). -/
def State.choose (s : State) (p : Port) : State :=
  if (s.ports.get p).tx.isIdle && (s.ports.get p).link then
    match s.mode with
    | .enforcing =>
      match s.openWindow p with
      | none => s
      | some w => s.serve (fun occ => s.clock.timer + occ ≤ w.stop) (w.classes.get 0) (classesOf w.classes) p
    | .pass => s.serve (fun _ => true) true [0, 1, 2, 3] p
    | .block => s.serve (fun _ => true) true [] p
  else s

/-- The choice a port is asked for is made (R11). -/
def State.chooseIfDue (s : State) (p : Port) : State :=
  if s.aux.choiceDue.get p then
    (s.setAux { s.aux with choiceDue := s.aux.choiceDue.set p false }).choose p
  else s

/-- Every choice asked for is made, in port order. -/
def State.makeChoices (s : State) : State := Port.all.foldl State.chooseIfDue s

/-! ### Drain completion -/

/-- A drain that is idle and empty completes with reason COMPLETE (R126). -/
def State.completeDrain (s : State) (p : Port) : State :=
  let u := s.ports.get p
  if u.admin = .draining ∧ u.tx.isIdle ∧ u.queuesEmpty then
    (s.onPort p fun u => { u with admin := .drained, drain := none }).raise .drainDone (some p) none
      (drainDetail false ((u.drain.map (·.flushed)).getD 0))
  else s

/-- The completion test of every branch. -/
def State.completeDrains (s : State) : State := Port.branches.foldl State.completeDrain s

/-! ### Event unit -/

/-- The OVERFLOW notice is queued once there is room for it and none is queued (R153). -/
def EventUnit.queueOverflow (e : EventUnit) (cycle : Word) : EventUnit :=
  if e.overflowSet ≠ [] ∧ ordinaryCount e.queue < Config.ordinaryNotices ∧ ¬overflowInQueue e.queue then
    { e with
      queue := e.queue ++
        [{ notice := ⟨e.lastAssigned + 1, .overflow, none, none, cycle, overflowDetail e.overflowSet e.lostCount⟩,
           sent := false }]
      lastAssigned := e.lastAssigned + 1
      overflowSet := []
      lostCount := 0 }
  else e

/-- The OVERFLOW notice of the event unit (R153). -/
def State.queueOverflow (s : State) : State := s.setEvents (s.events.queueOverflow s.clock.number)

/-- A report frame of some notices to the sink; its tag is the first sequence number (R155, R156). -/
def State.reportFrame (s : State) (sink : Byte) (ns : List Notice) : OwnFrame :=
  { kind := .report, destination := sink, source := s.straps.station, tag := (ns.head?.map (·.sequence)).getD 0,
    payload := reportPayload ns, restartMark := false }

/-- The first `n` UNSENT notices of a queue become SENT (R155). -/
def markSent : Nat → List QueuedNotice → List QueuedNotice
  | 0, q => q
  | _, [] => []
  | n + 1, x :: q => if x.sent then x :: markSent (n + 1) q else { x with sent := true } :: markSent n q

/-- A report is built where its four conditions hold (R155). -/
def State.buildReport (s : State) : State :=
  match s.events.sink with
  | none => s
  | some sink =>
    if s.events.report = none ∧ unsentNotices s.events.queue ≠ [] ∧ s.slotFree then
      let ns := (unsentNotices s.events.queue).take Config.reportNotices
      (s.setEvents
          { s.events with
            queue := markSent Config.reportNotices s.events.queue
            report := some { sends := 1, due := false }
            timer := some s.cfg.active.params.retransmitTime }).appendOwn
        (s.reportFrame sink ns)
    else s

/-- A due retransmission is made where a slot is free: the report is rebuilt from the SENT notices, the send count increases and
the timer restarts (R156). -/
def State.retransmit (s : State) : State :=
  match s.events.sink, s.events.report with
  | some sink, some r =>
    if r.due ∧ s.slotFree then
      (s.setEvents
          { s.events with
            report := some { sends := r.sends + 1, due := false }
            timer := some s.cfg.active.params.retransmitTime }).appendOwn
        (s.reportFrame sink ((sentNotices s.events.queue).take Config.reportNotices))
    else s
  | _, _ => s

/-- A due retransmission could be made: there is a sink, and a slot is free (R156). -/
def State.retransmitReady (s : State) : Bool :=
  s.events.sink.isSome && (s.events.report.any fun r => r.due) && s.slotFree

/-- A report could be built: its four conditions hold (R155). -/
def State.reportReady (s : State) : Bool :=
  s.events.sink.isSome && s.events.report.isNone && !(unsentNotices s.events.queue).isEmpty && s.slotFree

/-- What the event unit does where an event left its conditions fulfilled (R153, R155, R156). A slot that an OWN_TX_END has just freed
is on offer to a response of the same instant as well, and R79 and R159 give both orders: the report or retransmission that waits
for it is left to REPORT_BUILD or DEFERRED_RETRANSMISSION, or to the end of the next command (DEDUCED, log entry 27). -/
def State.eventWork (s : State) : State :=
  if s.aux.slotFreed then s.queueOverflow.setAux { s.aux with slotFreed := false }
  else s.queueOverflow.retransmit.buildReport

/-! ### The end of a command -/

/-- The steps that follow from an event are taken within it (log entry 2): the choices R11 lists, drain completions, the event
unit's work, and the choice of T for an own frame that work appended. A slot that the command freed stays free through them
(`State.eventWork`, log entry 27). -/
def settle (s : State) : State := s.makeChoices.completeDrains.eventWork.makeChoices

/-- A command that the running gate takes: its own effect, then the steps that follow from it. While RESET_N is low the gate
takes none (R164). -/
def taken (s : State) (f : State → State) : Host.Outcome State Fault Refusal :=
  .next (if s.resetHeld then s else settle (f s))

end Sys2Proof.Machine
end

