-- ==== Sys2Proof/Machine/Time.lean ====
section
/-! DEFINITION. The passage of time: byte times, millisecond ticks, the events that have come due, and what the gate does while no
command waits. -/

namespace Sys2Proof.Machine

open Sys2Proof

/-- The byte times left of a transmission after `n` more (R8). -/
def Transmitter.elapse (n : Nat) : Transmitter → Transmitter
  | .idle => .idle
  | .busy f occ rem => .busy f occ (rem - n)

/-- A receiver between start and end of a frame receives a byte every byte time (R105, R109). -/
def Reception.elapse (n : Nat) (r : Reception) : Reception :=
  if r.state = .idle then r else { r with bytes := r.bytes + n }

/-- Byte times go by at a port. -/
def PortUnit.elapse (n : Nat) (u : PortUnit) : PortUnit := { u with tx := u.tx.elapse n, rx := u.rx.elapse n }

/-- Millisecond ticks go by: every lease and the running retransmit timer fall (R135, R156). -/
def State.advanceMs (s : State) (ticks : Nat) : State :=
  (s.setSlots (s.mgmt.slots.map fun x => x.map fun y => { y with remaining := y.remaining - ticks })).setEvents
    { s.events with timer := s.events.timer.map fun t => t - ticks }

/-- The millisecond ticks after one count of byte times and up to another (R135). -/
def ticksBetween (a b : Nat) : Nat := b / Config.msByteTimes - a / Config.msByteTimes

/-- Byte times go by: the cycle timer runs (R83), transmissions and receptions go on, and a millisecond tick comes every
12,500 byte times (R135). DESIGN CHOICE (log entry 28): at the instant of a tick the fall of the leases and of the timer comes first, before a
request that ends at that instant; a lease that such a request renews stays at its full value through that tick, and not at one less (R136
orders the request and the expiry, and leaves the fall open). -/
def State.advance (s : State) (n : Nat) : State :=
  let t : State :=
    { s with
      clock := { s.clock with timer := s.clock.timer + n, elapsed := s.clock.elapsed + n }
      ports := s.ports.map (PortUnit.elapse n) }
  t.advanceMs (ticksBetween s.clock.elapsed (s.clock.elapsed + n))

/-- The value of the cycle timer at which the missed-sync evaluation is made (R95). -/
def evaluationTime (c : Params) : Nat := c.syncOffset + c.halfWidth + 32

/-- The end of transmission that is due at a port. -/
def transmissionDue (p : Port) : Transmitter → List Instr
  | .busy (.data _) _ 0 => [.dataTxEnd p]
  | .busy (.own _) _ 0 => [.ownTxEnd]
  | .busy (.sync _ _ _) _ 0 => [.syncTxEnd p]
  | _ => []

/-- The time-driven events that have come due and are not taken yet: ends of transmissions, the natural cycle start, the expiries
of one, lease expiries, the retransmit timer, and a retransmission or report that waits with a slot free, as the end of an own frame's
transmission leaves it (R79, log entry 27). -/
def State.dueEvents (s : State) : List Instr :=
  (Port.all.flatMap fun p => transmissionDue p (s.ports.get p).tx) ++
    (if s.clock.cycleEnd ≤ s.clock.timer then [.naturalCycleStart] else []) ++
    (Port.all.filter fun p => (s.aux.expiryLeft.get p).isSome).map .lifetimeExpiry ++
    (([0, 1, 2, 3] : List (Fin 4)).filter fun i => (s.mgmt.slots.get i).any fun x => x.remaining = 0).map .leaseExpiry ++
    (if s.events.timer = some 0 then [.retransmitTimerExpiry] else []) ++
    (if s.retransmitReady then [.deferredRetransmission] else []) ++ (if s.reportReady then [.reportBuild] else [])

/-- The events of the value that the running timer has just reached: window closes, window opens and the missed-sync evaluation
(R3, R95). The end of the cycle is a value the cycle does not reach (R84). -/
def State.reachedEvents (s : State) : List Instr :=
  if s.clock.timer < s.clock.cycleEnd then
    (s.cfg.active.windows.filter fun w => w.stop = s.clock.timer).map (fun w => .windowClose w.port w.stop) ++
      (s.cfg.active.windows.filter fun w => w.start = s.clock.timer).map (fun w => .windowOpen w.port w.start) ++
      (if s.clock.timer = evaluationTime s.cfg.active.params then [.missedSyncEvaluation] else [])
  else []

/-- What the gate does while no command waits (log entry 1): events that are due become the waiting commands; where none is, one
byte time goes by, and the events it brings become the waiting commands. The timer stands at the end of the cycle until the
natural cycle start is taken, so an event taken before it at that instant sees that value (R84 does not say which it sees; log
entry 1). While RESET_N is low no time is counted (R164). -/
def idleStep (s : State) : State :=
  if s.resetHeld then s
  else
    match s.dueEvents with
    | [] => { s.advance 1 with pending := (s.advance 1).dueEvents ++ (s.advance 1).reachedEvents }
    | c :: cs => { s with pending := c :: cs }

end Sys2Proof.Machine
end

