-- ==== Sys2Proof/Machine/Restart.lean ====
section
/-! DEFINITION. Reset and warm restart (R82, R146, R160, R164). -/

namespace Sys2Proof.Machine

open Sys2Proof

/-- The per-port part of a warm restart: reception abandoned, transmission cut off, queues emptied, admin OPEN, counters 0,
link kept (R82, R118, R121). -/
def PortUnit.warm (u : PortUnit) : PortUnit :=
  { u with admin := .opened, drain := none, rx := .rest, tx := .idle, queues := Quad.fill [], count := .zero }

/-- The event unit after a warm restart at a cycle number: RESTARTED alone, with sequence number 1 (R160). -/
def EventUnit.warm (cycle : Word) : EventUnit := EventUnit.powerOn.raise .restarted none none cycle 0

/-- The configuration unit after a warm restart (R62). -/
def ConfigUnit.warm (c : ConfigUnit) : ConfigUnit := { c with staged := c.active, armed := none, edited := false }

/-- The request frame whose reception a warm restart cuts off on T, with the instant of the cut (R147). -/
def State.restartCuts (s : State) : Option CutRequest :=
  match s.ports.t.rx.state, s.ports.t.rx.header, s.control with
  | .control, some h, some c =>
    if c.kind = kindMreq then
      some { elapsed := s.clock.elapsed, header := h, bytes := s.ports.t.rx.bytes, check := s.ports.t.rx.check, frame := c }
    else none
  | _, _, _ => none

/-- A warm restart: every block takes its warm-restart state at one instant (R146). Straps, clock, active configuration,
generation and link states are kept; every block of the pool is free. A request frame that it cuts off on T is remembered for
a FRAME_END of the same instant (R147, log entry 25). -/
def State.warmRestart (s : State) : State :=
  { s with
    lock := false
    sync := .initial
    trunkCount := .zero
    cfg := s.cfg.warm
    classifier :=
      { records := s.cfg.active.streams.map freshRecord, unknownMarks := PerPort.fill none }
    ports := s.ports.map PortUnit.warm
    store := { free := Config.poolBlocks, frames := [] }
    own := []
    control := none
    mgmt := { slots := Quad.fill none, restartPending := false }
    events := .warm s.clock.number
    aux := { s.aux with cutRequest := s.restartCuts } }

/-- RESET_ASSERT: RESET_N falls. Frames in reception and in flight are lost and LOCK is low; from then on the gate takes
nothing and counts no time until the release (R164). -/
def execResetAssert (s : State) : Host.Outcome State Fault Refusal :=
  .next { Port.all.foldl (fun t p => (t.abandon p).cutOff p) s with resetHeld := true, lock := false }

/-- RESET_RELEASE: the straps are sampled and every block takes its power-on state (R162 to R164). -/
def execResetRelease (straps : Byte) (fallbackHigh : Bool) (links : PerPort Bool) (s : State) :
    Host.Outcome State Fault Refusal :=
  .next (State.powerOn straps fallbackHigh links s.pending)

/-- WARM_RESTART: the restart that the pending-restart mark announces is carried out; without the mark there is none to carry
out (R145, R146). The four events of R145 that bring it on carry it out within their own commands. DESIGN CHOICE (log entry 29): sent with the mark
set while the restart response still waits or is in flight, the row carries the restart out at once and carries no time; the
response is emptied or cut off with the rest (R82). -/
def execWarmRestart (s : State) : Host.Outcome State Fault Refusal :=
  taken s fun s => if s.mgmt.restartPending then s.warmRestart else s

end Sys2Proof.Machine
end

