-- ==== Sys2Proof/Machine/Egress.lean ====
section
/-! DEFINITION. Ends of transmissions, the transmit pins, and the choice as a command. -/

namespace Sys2Proof.Machine

open Sys2Proof

/-- The normal end of a data frame (R71): its reference is handed back, TX_FRAMES and, where its stream has an entry, FORWARDED are
counted, and the egress unit is asked for a choice. -/
def State.endData (s : State) (p : Port) (d : Descriptor) : State :=
  let t := ((s.onPort p fun u => { u with tx := .idle }).release d).onCount p fun k => { k with txFrames := k.txFrames + 1 }
  let t :=
    if (streamEntry s.cfg.active d.stream).isSome then
      t.onRecord d.stream fun r => { r with forwarded := r.forwarded + 1 }
    else t
  t.prompt p

/-- DATA_TX_END: the occupancy of the data frame in flight elapses (R71). With none in flight nothing ends. -/
def execDataTxEnd (p : Port) (s : State) : Host.Outcome State Fault Refusal :=
  taken s fun s =>
    match (s.ports.get p).tx with
    | .busy (.data d) _ rem => (s.advance rem).endData p d
    | _ => s

/-- OWN_TX_END: the occupancy of the own frame in flight elapses, and its slot is free (R80). The freed slot is on offer: a response of the same
instant may come before the report or retransmission that waits for it, or after (R79, R159, log entry 27). The end of the restart response
is the trigger of the warm restart (R145). -/
def execOwnTxEnd (s : State) : Host.Outcome State Fault Refusal :=
  taken s fun s =>
    match s.ports.t.tx with
    | .busy (.own f) _ rem =>
      let t := (s.advance rem).onPort .t fun u => { u with tx := .idle }
      if f.restartMark then t.warmRestart else t.offerSlot.prompt .t
    | _ => s

/-- SYNC_TX_END: the occupancy of the branch sync frame in flight elapses, and SYNC_SENT is counted (R103). -/
def execSyncTxEnd (p : Port) (s : State) : Host.Outcome State Fault Refusal :=
  taken s fun s =>
    match (s.ports.get p).tx with
    | .busy (.sync _ _ _) _ rem =>
      let t := (s.advance rem).onPort p fun u => { u with tx := .idle }
      (t.onCount p fun k => { k with syncSent := k.syncSent + 1 }).prompt p
    | _ => s

/-! ### The transmit pins (R8, 11.4) -/

/-- The byte a port's transmitter puts on the line in this byte time: none while it is IDLE and in the 6 byte times of the gap that end
an occupancy, when its enable pin is low (R8, 11.1). -/
def State.lineByte (s : State) (p : Port) : Option Byte :=
  match (s.ports.get p).tx with
  | .idle => none
  | .busy f occ rem => (wireImage s.store f)[occ - rem]?

/-- The nibbles of the transmit pins in the two clock periods of this byte time: the least significant nibble first (11.4). -/
def State.txPins (s : State) (p : Port) : Option (BitVec 4 × BitVec 4) :=
  (s.lineByte p).map fun (b : Byte) => (b.setWidth 4, (b >>> 4).setWidth 4)

/-- CHOICE: the egress unit makes a choice, provided its transmitter is IDLE and its link is UP (R11). -/
def execChoice (p : Port) (s : State) : Host.Outcome State Fault Refusal := taken s fun s => s.choose p

end Sys2Proof.Machine
end

