-- ==== Sys2Proof/Machine/Link.lean ====
section
/-! DEFINITION. Link loss, link return and the completion of drains. -/

namespace Sys2Proof.Machine

open Sys2Proof

/-- Whether a transmitter carries the restart response (R145). -/
def Transmitter.carriesRestart : Transmitter → Bool
  | .busy (.own f) _ _ => f.restartMark
  | _ => false

/-- Whether the restart response waits or is in flight on T. -/
def State.restartResponseOut (s : State) : Bool := s.own.any (·.restartMark) || s.ports.t.tx.carriesRestart

/-- Reception at a link loss: a frame not yet counted is counted RX_CHECK, and the reception is abandoned (R117). -/
def State.loseReception (s : State) (p : Port) : State :=
  let x := (s.ports.get p).rx.state
  (if x = .idle ∨ x = .dropped then s else s.onCount p fun k => { k with rxCheck := k.rxCheck + 1 }).abandon p

/-- Transmission at a link loss: a frame in flight is cut off and counted TX_ABORTED (R9, R72). -/
def State.loseTransmission (s : State) (p : Port) : State :=
  if (s.ports.get p).tx.isIdle then s
  else (s.cutOff p).onCount p fun k => { k with txAborted := k.txAborted + 1 }

/-- Queues at a link loss: the class queues and, on T, the own queue are flushed, and TX_FLUSHED counts what was removed (R76, R80). -/
def State.loseQueues (s : State) (p : Port) : State :=
  let n := (s.ports.get p).queued + (if p = .t then s.own.length else 0)
  let t := s.flushQueues p
  let t := if p = .t then t.setOwn [] else t
  t.onCount p fun k => { k with txFlushed := k.txFlushed + wordOf n }

/-- A drain in progress at a link loss is finished with reason LINK; its record's flushed count takes in the descriptors
flushed at the loss (R128). -/
def State.finishDrainByLink (s : State) (p : Port) (flushed : Nat) : State :=
  let u := s.ports.get p
  if u.admin = .draining then
    (s.onPort p fun u => { u with admin := .drained, drain := none }).raise .drainDone (some p) none
      (drainDetail true ((u.drain.map (·.flushed)).getD 0 + flushed))
  else s

/-- A port's link goes DOWN (R122, R128). -/
def State.loseLink (s : State) (p : Port) : State :=
  let t := ((s.loseReception p).loseTransmission p).loseQueues p
  let t := t.onPort p fun u => { u with link := false }
  (t.raise .linkChange (some p) none ((linkByte false).setWidth 32)).finishDrainByLink p (s.ports.get p).queued

/-- LINK_LOSS: a port whose link is UP goes DOWN (R122). A restart response that is cut off or flushed by a loss on T is the trigger
of the warm restart (R80, R145). DESIGN CHOICE (log entry 16): the restart is taken after the rest of the loss, so the LINK_CHANGE of the
loss is emptied from the event queue with every other notice (R122, R147, R160). -/
def execLinkLoss (p : Port) (s : State) : Host.Outcome State Fault Refusal :=
  taken s fun s =>
    if (s.ports.get p).link then
      let t := s.loseLink p
      if p = .t ∧ s.restartResponseOut then t.warmRestart else t
    else s

/-- LINK_RETURN: a port whose link is DOWN returns UP: LINK_CHANGE is raised, the admin state is kept, and the egress unit is asked for
a choice (R123). -/
def execLinkReturn (p : Port) (s : State) : Host.Outcome State Fault Refusal :=
  taken s fun s =>
    if (s.ports.get p).link then s
    else
      let t := s.onPort p fun u => { u with link := true }
      (t.raise .linkChange (some p) none ((linkByte true).setWidth 32)).prompt p

/-- DRAIN_COMPLETION: a DRAINING port that is idle and empty becomes DRAINED (R126). -/
def execDrainCompletion (p : Port) (s : State) : Host.Outcome State Fault Refusal :=
  taken s fun s => s.completeDrain p

end Sys2Proof.Machine
end

