-- ==== Sys2Proof/Machine/Notices.lean ====
section
/-! DEFINITION. The event unit's own events, and lease expiry. -/

namespace Sys2Proof.Machine

open Sys2Proof

/-- The sink is lost after the fourth send (R157): the sink and its session's flag are cleared, SENT notices return to UNSENT, the
report is gone, and SINK_LOST is raised. -/
def State.loseSink (s : State) (station : Byte) : State :=
  let t := s.setSlots (s.mgmt.slots.map fun x => x.map fun y => if y.station = station then { y with sink := false } else y)
  (t.setEvents { t.events.unsend with sink := none }).raise .sinkLost none none (station.setWidth 32)

/-- The retransmit timer has expired (R156): after one to three sends a retransmission is due and the timer is stopped; after the fourth the sink is
lost. The due retransmission is made by the event unit's work at the end of the command, where a slot is free; a timer that restarts then has
taken the fall of this tick already (log entry 28). -/
def State.expireTimer (s : State) (r : Report) : State :=
  if r.sends < 4 then
    s.setEvents { s.events with timer := none, report := some { r with due := true } }
  else
    match s.events.sink with
    | some station => s.loseSink station
    | none => s.setEvents s.events.unsend

/-- RETRANSMIT_TIMER_EXPIRY: the millisecond ticks have run the retransmit timer down to 0, and it expires (R156, R157). With the timer
stopped, or milliseconds of it left, nothing expires. -/
def execRetransmitTimerExpiry (s : State) : Host.Outcome State Fault Refusal :=
  taken s fun s =>
    match s.events.report with
    | some r => if s.events.timer = some 0 then s.expireTimer r else s
    | none => s

/-- DEFERRED_RETRANSMISSION: a due retransmission is made where a slot is free (R156). -/
def execDeferredRetransmission (s : State) : Host.Outcome State Fault Refusal := taken s State.retransmit

/-- REPORT_BUILD: a report is built where its conditions hold (R155). -/
def execReportBuild (s : State) : Host.Outcome State Fault Refusal := taken s State.buildReport

/-- OVERFLOW_QUEUED: the OVERFLOW notice is queued where its conditions hold (R153). -/
def execOverflowQueued (s : State) : Host.Outcome State Fault Refusal := taken s State.queueOverflow

/-- LEASE_EXPIRY: the millisecond ticks have run the lease of the session in a slot down to 0; the session ends, and SESSION_EXPIRED is
raised after its end (R135). A free slot has no lease, and a lease with milliseconds left, as one that a request of the same instant has
just renewed, does not expire (R136). The fall of that tick has been taken with the byte times, before a request of its instant, so a lease renewed
ahead of this command stays full through the tick: DESIGN CHOICE (log entry 28). -/
def execLeaseExpiry (slot : Fin 4) (s : State) : Host.Outcome State Fault Refusal :=
  taken s fun s =>
    match s.mgmt.slots.get slot with
    | none => s
    | some x =>
      if x.remaining = 0 then (s.endSession slot).raise .sessionExpired none none (x.station.setWidth 32) else s

end Sys2Proof.Machine
end

