-- ==== Sys2Proof/Machine/Classify.lean ====
section
/-! DEFINITION. Classification and admission of data-path frames (R29 to R39). -/

namespace Sys2Proof.Machine

open Sys2Proof

/-- The offer of an accepted frame to one port of its egress set (R37): admitted to the tail of its class queue, or refused and counted. The
second component is the number of descriptors created. An append to an empty queue asks the port for a choice (R11, R40). -/
def State.offer (s : State) (d : Descriptor) (p : Port) : State × Nat :=
  let u := s.ports.get p
  let refused (f : PortCounters → PortCounters) : State × Nat :=
    ((s.onCount p f).onRecord d.stream fun r => { r with noQueue := r.noQueue + 1 }, 0)
  if !u.link then refused fun k => { k with txLinkDown := k.txLinkDown + 1 }
  else if u.admin ≠ .opened then refused fun k => { k with txDrained := k.txDrained + 1 }
  else if Config.classQueueCapacity ≤ (u.queues.get d.cls).length then
    refused fun k => { k with queueFull := k.queueFull + 1 }
  else
    let t := s.onPort p fun u => { u with queues := u.queues.set d.cls (u.queues.get d.cls ++ [d]) }
    (if (u.queues.get d.cls).isEmpty then t.prompt p else t, 1)

/-- The offers to every port of a set, and the number of descriptors they create. -/
def State.offerAll (s : State) (d : Descriptor) : List Port → State × Nat
  | [] => (s, 0)
  | p :: ps => (((s.offer d p).1.offerAll d ps).1, (s.offer d p).2 + ((s.offer d p).1.offerAll d ps).2)

/-- The ports of a set, in port order. -/
def portsOf (x : PerPort Bool) : List Port := Port.all.filter fun p => x.get p

/-- The descriptor an accepted frame gets (R38). -/
def descriptorOf (e : StreamEntry) (ref length : Nat) (cycle : Word) : Descriptor :=
  { frame := ref, stream := e.stream, length := length, cls := e.cls, deadline := cycle + wordOf e.lifetime - 1,
    reportLate := e.report.late }

/-- An accepted frame (R35, R37, R39): RECEIVED is counted, the frame is offered to its egress set, and it is stored with its lowered hop limit
where a descriptor was created; else its blocks return to the pool. -/
def State.acceptFrame (s : State) (e : StreamEntry) (h : Header) (payload : List Byte) (held : Nat) : State :=
  let ref := s.store.freshRef
  let t := s.onRecord e.stream fun r => { r with received := r.received + 1 }
  let offered := t.offerAll (descriptorOf e ref payload.length s.clock.number) (portsOf e.egress)
  if offered.2 = 0 then offered.1.returnBlocks held
  else
    offered.1.setStore
      { offered.1.store with
        frames := offered.1.store.frames ++
          [{ ref := ref, bytes := headerBytes (lowerHop h) ++ payload, blocks := held, count := offered.2 }] }

/-- Check 2 fails: RX_UNKNOWN, and UNKNOWN_STREAM under the port's mark (R31). -/
def State.unknownStream (s : State) (p : Port) (n : StreamNo) : State :=
  let t := s.onCount p fun k => { k with rxUnknown := k.rxUnknown + 1 }
  if inEffect (t.classifier.unknownMarks.get p) t.clock.number then t
  else
    let t := t.raise .unknownStream (some p) (noticeStream n) 0
    t.setClassifier { t.classifier with unknownMarks := t.classifier.unknownMarks.set p (some t.clock.number) }

/-- Check 4 fails: OVERSIZE, and STREAM_OVERSIZE under the stream's mark where it is reportable (R33). -/
def State.oversizeFrame (s : State) (p : Port) (e : StreamEntry) (r : StreamRecord) (length : Nat) : State :=
  let t := s.onRecord e.stream fun r => { r with oversize := r.oversize + 1 }
  if e.report.oversize ∧ ¬inEffect r.oversizeMark t.clock.number then
    (t.raise .streamOversize (some p) (noticeStream e.stream) (wordOf length)).onRecord e.stream
      fun r => { r with oversizeMark := some t.clock.number }
  else t

/-- Check 5 fails: POLICED and policed this cycle, and STREAM_POLICED under the stream's mark where it is reportable (R34). -/
def State.policeFrame (s : State) (p : Port) (e : StreamEntry) (r : StreamRecord) : State :=
  let t := s.onRecord e.stream fun r => { r with policed := r.policed + 1, policedNow := r.policedNow + 1 }
  if e.report.policed ∧ ¬inEffect r.policedMark t.clock.number then
    (t.raise .streamPoliced (some p) (noticeStream e.stream) (r.policedNow + 1)).onRecord e.stream
      fun r => { r with policedMark := some t.clock.number }
  else t

/-- The classifier judges a frame at the end of its reception (R29 to R36). A frame that a check refuses is discarded, and its blocks return to the
pool. -/
def State.classify (s : State) (p : Port) (h : Header) (payload : List Byte) (held : Nat) : State :=
  if h.hopLimit = 0 then (s.onCount p fun k => { k with rxHop := k.rxHop + 1 }).returnBlocks held
  else
    match streamEntry s.cfg.active (streamNo h) with
    | none => (s.unknownStream p (streamNo h)).returnBlocks held
    | some e =>
      let r := (streamRecord s.classifier.records e.stream).getD (freshRecord e)
      if p ≠ e.ingress then (s.onCount p fun k => { k with rxWrongPort := k.rxWrongPort + 1 }).returnBlocks held
      else if e.maxPayload < payload.length then (s.oversizeFrame p e r payload.length).returnBlocks held
      else if e.budget ≠ 0 ∧ r.budgetRemaining = 0 then (s.policeFrame p e r).returnBlocks held
      else
        let t := if e.budget = 0 then s
          else s.onRecord e.stream fun r => { r with budgetRemaining := r.budgetRemaining - 1 }
        t.acceptFrame e h payload held

end Sys2Proof.Machine
end

