-- ==== Sys2Proof/Machine/Sessions.lean ====
section
/-! DEFINITION. Sessions and the judging of requests: renewal, sequence and replay, responses, OPEN, CLOSE, RENEW and unknown codes. -/

namespace Sys2Proof.Machine

open Sys2Proof

/-- What a unit hands back for a request: a status, a body, and whether the response is the restart response (R142, R145). -/
structure Reply where
  status : Status
  body : List Byte
  marked : Bool
  deriving DecidableEq, Repr

/-- A reply of a status and a body. -/
def reply (status : Status) (body : List Byte) : Reply := { status := status, body := body, marked := false }

/-- The payload of a response (R141, 11.2). -/
def responsePayload (code : Byte) (r : Reply) : List Byte := code :: statusByte r.status :: r.body

/-- The response frame to a request (R141). -/
def State.responseFrame (s : State) (h : RequestHead) (payload : List Byte) (marked : Bool) : OwnFrame :=
  { kind := .response, destination := h.source, source := s.straps.station, tag := h.tag, payload := payload,
    restartMark := marked }

/-- A response joins the own queue where a slot is free, and is dropped and counted where none is (R78). -/
def State.respond (s : State) (h : RequestHead) (payload : List Byte) (marked : Bool) : State :=
  if s.slotFree then s.appendOwn (s.responseFrame h payload marked)
  else s.onCount .t fun k => { k with txOwnDrop := k.txOwnDrop + 1 }

/-- The session of a station (R133). -/
def sessionOf (q : Quad (Option Session)) (station : Byte) : Option Session := (sessionSlot q station).bind q.get

/-- A station's sessions changed where it holds one. -/
def onSession (q : Quad (Option Session)) (station : Byte) (f : Session → Session) : Quad (Option Session) :=
  q.map fun x => x.map fun y => if y.station = station then f y else y

/-- A response is recorded in the session of its station, where that still exists (R134, R140). -/
def State.record (s : State) (h : RequestHead) (payload : List Byte) : State :=
  s.setSlots (onSession s.mgmt.slots h.source fun y => { y with lastSequence := h.tag, replay := payload })

/-- Every request frame of a station renews its session (R134, step 1). -/
def State.renewLease (s : State) (station : Byte) : State :=
  s.setSlots (onSession s.mgmt.slots station fun y => { y with remaining := y.lease })

/-- A request is answered (R141). A restart response that meets no free slot is dropped, and the warm restart is carried out at that
instant (R78, R145). -/
def State.answer (s : State) (h : RequestHead) (code : Byte) (r : Reply) (recorded : Bool) : State :=
  let payload := responsePayload code r
  let t := if recorded then s.record h payload else s
  if r.marked ∧ ¬t.slotFree then (t.respond h payload r.marked).warmRestart else t.respond h payload r.marked

/-- Whether a source station can hold a session: the receiver hands over no request of 0 or 255 (R108). -/
def validSource (h : RequestHead) : Bool := h.source ≠ 0 && h.source ≠ 255

/-- Whether a payload is too short for a code and flags, or longer than 128 bytes (R134, step 2). -/
def badLength (h : RequestHead) : Bool := h.length.toNat < 2 || 128 < h.length.toNat

/-- The code a response echoes: 0 for a request without one (R141). -/
def echoCode (h : RequestHead) (code : Byte) : Byte := if h.length = 0 then 0 else code

/-- Whether the body has this length (R168). -/
def bodyLength (h : RequestHead) (n : Nat) : Bool := h.length.toNat = n + 2

/-- Steps 1 to 8 of R134 for a request other than OPEN: `edit` says that the request requires EDIT, `lengthOk` that its code is known and its
body has the length it calls for, and `act` is what the unit that owns it does. -/
def State.serveRequest (s : State) (h : RequestHead) (code : Byte) (edit lengthOk : Bool) (act : State → State × Reply) :
    State :=
  if validSource h then
    let t := s.renewLease h.source
    if badLength h then t.answer h (echoCode h code) (reply .badRequest []) false
    else
      match sessionOf t.mgmt.slots h.source with
      | none => t.answer h code (reply .noSession []) false
      | some x =>
        if h.tag = x.lastSequence then t.respond h x.replay false
        else if h.tag ≠ x.lastSequence + 1 then
          t.answer h code (reply .sequence (be16 (x.lastSequence + 1))) false
        else if !lengthOk then t.answer h code (reply .badRequest []) true
        else if edit ∧ x.mode ≠ .edit then t.answer h code (reply .mode []) true
        else (act t).1.answer h code (act t).2 true
  else s

/-! ### OPEN (R137) -/

/-- An OPEN that every refusal has passed (R137): an earlier session of the station ends, the new one takes the lowest free slot, and REPORT
makes it the sink. -/
def State.acceptOpen (s : State) (h : RequestHead) (mode : SessionMode) (lease : Nat) : State :=
  let t := match sessionSlot s.mgmt.slots h.source with
    | some i => s.endSession i
    | none => s
  match freeSlot t.mgmt.slots with
  | none => t
  | some k =>
    let r := reply .ok (byteOf k.val :: be16 (halfOf lease))
    let x : Session :=
      { station := h.source, mode := mode, lease := lease, remaining := lease, lastSequence := h.tag,
        replay := responsePayload 0x01 r, sink := false }
    let t := t.setSlots (t.mgmt.slots.set k (some x))
    let t := if bitOf h.flags 0 then t.setSink h.source else t
    t.answer h 0x01 r false

/-- OPEN as the management unit judges it (R134, R137). -/
def State.openRequest (s : State) (h : RequestHead) (mode : Byte) (lease : Half) : State :=
  if validSource h then
    let t := s.renewLease h.source
    if badLength h then t.answer h (echoCode h 0x01) (reply .badRequest []) false
    else if !bodyLength h 3 then t.answer h 0x01 (reply .badRequest []) false
    else if 1 < mode.toNat then t.answer h 0x01 (reply .range [1]) false
    else if lease.toNat < 100 ∨ 60000 < lease.toNat then t.answer h 0x01 (reply .range [2]) false
    else
      match (editStation t.mgmt.slots).filter fun x => mode = 1 && x ≠ h.source with
      | some other => t.answer h 0x01 (reply .claimed [other]) false
      | none =>
        if sessionSlot t.mgmt.slots h.source = none ∧ freeSlot t.mgmt.slots = none then
          t.answer h 0x01 (reply .full []) false
        else t.acceptOpen h (if mode = 1 then .edit else .observe) lease.toNat
  else s

/-- OPEN (R137). -/
def execOpen (r : RequestHead) (mode : Byte) (lease : Half) (s : State) : Host.Outcome State Fault Refusal :=
  taken s fun s => s.openRequest r mode lease

/-! ### CLOSE and RENEW (R139) -/

/-- CLOSE as the management unit judges it: the session ends, and the response is recorded nowhere. -/
def State.closeRequest (s : State) (h : RequestHead) : State :=
  s.serveRequest h 0x02 false (bodyLength h 0) fun t =>
    ((match sessionSlot t.mgmt.slots h.source with | some i => t.endSession i | none => t), reply .ok [])

/-- CLOSE (R139). -/
def execClose (r : RequestHead) (s : State) : Host.Outcome State Fault Refusal := taken s fun s => s.closeRequest r

/-- RENEW as the management unit judges it: nothing beyond the renewal, and the lease in the body. -/
def State.renewRequest (s : State) (h : RequestHead) : State :=
  s.serveRequest h 0x03 false (bodyLength h 0) fun t =>
    (t, reply .ok (be16 (halfOf (((sessionOf t.mgmt.slots h.source).map (·.lease)).getD 0))))

/-- RENEW (R139). -/
def execRenew (r : RequestHead) (s : State) : Host.Outcome State Fault Refusal := taken s fun s => s.renewRequest r

/-! ### Unknown codes and malformed requests (R134) -/

/-- A request whose code is not known, or whose body has no length its code calls for, as the management unit judges it: it is carried out by
no unit. -/
def State.unknownRequest (s : State) (h : RequestHead) (code : Byte) : State :=
  s.serveRequest h code false false fun t => (t, reply .badRequest [])

/-- A request of an unknown code, or too short to carry a code and flags (R134). -/
def execUnknownRequestCode (r : RequestHead) (code : Byte) (s : State) : Host.Outcome State Fault Refusal :=
  taken s fun s => s.unknownRequest r code

end Sys2Proof.Machine
end

