-- ==== Sys2Proof/Machine/Reads.lean ====
section
/-! DEFINITION. READ and its objects (R143, 11.2 "READ bodies"). -/

namespace Sys2Proof.Machine

open Sys2Proof

/-- The code of READ. -/
def codeRead : Byte := 0x04

/-- A READ that answers from the state and changes nothing (R143). -/
def State.readRequest (s : State) (h : RequestHead) (bodyLen : Nat) (answer : State → Reply) : State :=
  s.serveRequest h codeRead false (bodyLength h bodyLen) fun t => (t, answer t)

/-- The copy a value names: 0 active, 1 pending (11.2). -/
def copyOf (c : ConfigUnit) (copy : Byte) : Option Configuration :=
  if copy = 0 then some c.active else if copy = 1 then some c.staged else none

/-- The stream number of a two-byte field, where it lies between 1 and 4,095 (R168). -/
def streamOf (x : Half) : Option StreamNo := if 1 ≤ x.toNat ∧ x.toNat ≤ 4095 then some (x.setWidth 12) else none

/-- READ of a selector the gate does not know: RANGE at execution (R143, R168). -/
def State.readUnknown (s : State) (h : RequestHead) : State :=
  s.serveRequest h codeRead false true fun t => (t, reply .range [])

/-- The body of READ IDENTITY. -/
def identityBody (x : Straps) : List Byte :=
  be16 0x0C05 ++ [x.station, policyByte x.policy, 5] ++ be16 512 ++ [4] ++ be16 256 ++ [64]

/-- READ IDENTITY as the management unit judges it. -/
def State.readIdentity (s : State) (h : RequestHead) : State :=
  s.readRequest h 1 fun t => reply .ok (identityBody t.straps)

/-- READ IDENTITY (R143, R165). -/
def execReadIdentity (r : RequestHead) (s : State) : Host.Outcome State Fault Refusal := taken s fun s => s.readIdentity r

/-- READ STREAM as the management unit judges it. -/
def State.readStream (s : State) (h : RequestHead) (copy : Byte) (stream : Half) : State :=
  s.readRequest h 4 fun t =>
    match copyOf t.cfg copy, streamOf stream with
    | some c, some n =>
      match streamEntry c n with
      | some e => reply .ok (streamBytes e)
      | none => reply .notFound []
    | _, _ => reply .range []

/-- READ STREAM (R63, R143). -/
def execReadStream (r : RequestHead) (copy : Byte) (stream : Half) (s : State) : Host.Outcome State Fault Refusal :=
  taken s fun s => s.readStream r copy stream

/-- READ WINDOW as the management unit judges it. -/
def State.readWindow (s : State) (h : RequestHead) (copy port index : Byte) : State :=
  s.readRequest h 4 fun t =>
    match copyOf t.cfg copy, portOf port with
    | some c, some p =>
      match (portWindows c p)[index.toNat]? with
      | some w => reply .ok (windowBytes w)
      | none => reply .notFound []
    | _, _ => reply .range []

/-- READ WINDOW (R1, R63, R143). -/
def execReadWindow (r : RequestHead) (copy port index : Byte) (s : State) : Host.Outcome State Fault Refusal :=
  taken s fun s => s.readWindow r copy port index

/-- READ PARAMS as the management unit judges it. -/
def State.readParams (s : State) (h : RequestHead) (copy : Byte) : State :=
  s.readRequest h 2 fun t =>
    match copyOf t.cfg copy with
    | some c => reply .ok (paramsBytes c.params)
    | none => reply .range []

/-- READ PARAMS (R63, R143). -/
def execReadParams (r : RequestHead) (copy : Byte) (s : State) : Host.Outcome State Fault Refusal :=
  taken s fun s => s.readParams r copy

/-- The body of READ STREAM_COUNTERS. -/
def streamCountersBody (r : StreamRecord) : List Byte :=
  be16 (r.stream.setWidth 16) ++ be32 r.received ++ be32 r.forwarded ++ be32 r.policed ++ be32 r.oversize ++
    be32 r.noQueue ++ be32 r.late

/-- READ STREAM_COUNTERS as the management unit judges it: the counters of an active entry. -/
def State.readStreamCounters (s : State) (h : RequestHead) (stream : Half) : State :=
  s.readRequest h 3 fun t =>
    match streamOf stream with
    | none => reply .range []
    | some n =>
      match streamRecord t.classifier.records n with
      | some r => reply .ok (streamCountersBody r)
      | none => reply .notFound []

/-- READ STREAM_COUNTERS (R24, R143). -/
def execReadStreamCounters (r : RequestHead) (stream : Half) (s : State) : Host.Outcome State Fault Refusal :=
  taken s fun s => s.readStreamCounters r stream

/-- The counters every READ PORT of T carries before the trunk sync counters (R81, R120). -/
def trunkPortCounters (k : PortCounters) : List Word :=
  [k.rxFrames, k.rxCheck, k.rxLength, k.rxKind, k.rxNoBuffer, k.rxMgmtSource, k.rxHop, k.rxUnknown, k.rxWrongPort,
    k.txLinkDown, k.txDrained, k.queueFull, k.txFrames, k.txAborted, k.late, k.txFlushed, k.txOwnDrop]

/-- The seven trunk sync counters in the order of R104. -/
def trunkSyncCounters (k : TrunkCounters) : List Word :=
  [k.accepted, k.missed, k.steps, k.format, k.mismatch, k.outside, k.duplicate]

/-- The counters every READ PORT of a branch carries (R81, R120, R104). -/
def branchPortCounters (k : PortCounters) : List Word :=
  [k.rxFrames, k.rxCheck, k.rxLength, k.rxKind, k.rxDrained, k.rxNoBuffer, k.rxSyncBranch, k.rxMgmtBranch, k.rxHop,
    k.rxUnknown, k.rxWrongPort, k.txLinkDown, k.txDrained, k.queueFull, k.txFrames, k.txAborted, k.late, k.txFlushed,
    k.syncSent, k.syncSkipped]

/-- Words on the wire, one after another. -/
def wordsBytes (ws : List Word) : List Byte := (ws.map be32).flatten

/-- The part of a READ PORT body that every port has: status, queue depths and free blocks (R81, R132). -/
def portStatusBody (s : State) (p : Port) : List Byte :=
  let u := s.ports.get p
  [portCode p, linkByte u.link, adminByte u.admin, flagByte (!u.tx.isIdle)] ++
    u.queues.toList.map (fun q => byteOf q.length) ++ [byteOf (if p = .t then s.own.length else 0)] ++
    be16 (halfOf s.store.free)

/-- The drain record of a branch: where it is absent the manual states the option byte, and the other eight bytes are free values (log
entry 6). -/
def drainBody (s : State) (p : Port) : List Byte :=
  match (s.ports.get p).drain with
  | some d => [drainOptionByte d.option] ++ be32 d.cycle ++ be32 (wordOf d.flushed)
  | none => 0xFF :: s.freeBytes 8

/-- The body of READ PORT. -/
def portBody (s : State) (p : Port) : List Byte :=
  if p = .t then
    portStatusBody s p ++ wordsBytes (trunkPortCounters s.ports.t.count) ++ wordsBytes (trunkSyncCounters s.trunkCount)
  else portStatusBody s p ++ drainBody s p ++ wordsBytes (branchPortCounters (s.ports.get p).count)

/-- READ PORT as the management unit judges it. -/
def State.readPort (s : State) (h : RequestHead) (port : Byte) : State :=
  s.serveRequest h codeRead false (bodyLength h 2) fun t =>
    match portOf port with
    | some p =>
      ((if p ≠ .t ∧ (t.ports.get p).drain = none then t.useFree 8 else t), reply .ok (portBody t p))
    | none => (t, reply .range [])

/-- READ PORT (R81, R120, R132, R143). -/
def execReadPort (r : RequestHead) (port : Byte) (s : State) : Host.Outcome State Fault Refusal :=
  taken s fun s => s.readPort r port

/-- The last error: where it is absent its four bytes are free values (log entry 6). -/
def lastErrorBody (s : State) : List Byte :=
  match s.sync.lastError with
  | some e => flagByte true :: be32 (wordOfInt e)
  | none => flagByte false :: s.freeBytes 4

/-- The body of READ SYNC (R104). -/
def syncBody (s : State) : List Byte :=
  [syncStateByte s.sync.state, flagByte s.enforcing] ++ be32 s.clock.number ++ be32 (wordOf s.clock.timer) ++
    be32 (wordOf s.clock.cycleEnd) ++ [byteOf s.sync.good, byteOf s.sync.missed] ++ lastErrorBody s ++
    be16 s.cfg.generation ++ wordsBytes (trunkSyncCounters s.trunkCount) ++
    (Port.branches.map fun p =>
      be32 (s.ports.get p).count.syncSent ++ be32 (s.ports.get p).count.syncSkipped).flatten

/-- READ SYNC as the management unit judges it. -/
def State.readSync (s : State) (h : RequestHead) : State :=
  s.serveRequest h codeRead false (bodyLength h 1) fun t =>
    ((if t.sync.lastError = none then t.useFree 4 else t), reply .ok (syncBody t))

/-- READ SYNC (R104). -/
def execReadSync (r : RequestHead) (s : State) : Host.Outcome State Fault Refusal := taken s fun s => s.readSync r

/-- A slot in the READ SESSIONS body: every field of a free slot is 0. -/
def slotBody : Option Session → List Byte
  | none => [0, 0, 0, 0, 0, 0, 0, 0, 0]
  | some x =>
    [x.station, sessionModeByte x.mode] ++ be16 (halfOf x.lease) ++ be16 (halfOf x.remaining) ++ be16 x.lastSequence ++
      [flagByte x.sink]

/-- READ SESSIONS as the management unit judges it. -/
def State.readSessions (s : State) (h : RequestHead) : State :=
  s.readRequest h 1 fun t => reply .ok (t.mgmt.slots.toList.map slotBody).flatten

/-- READ SESSIONS (R143). -/
def execReadSessions (r : RequestHead) (s : State) : Host.Outcome State Fault Refusal := taken s fun s => s.readSessions r

/-- The milliseconds left on the retransmit timer: where it is stopped the byte is a free value (log entry 6). -/
def timerBody (s : State) : List Byte :=
  match s.events.timer with
  | some ms => [byteOf ms]
  | none => s.freeBytes 1

/-- The body of READ EVENTS (R161). -/
def eventsBody (s : State) : List Byte :=
  let e := s.events
  [e.sink.getD 0, byteOf (sentNotices e.queue).length, byteOf (unsentNotices e.queue).length,
      flagByte (overflowInQueue e.queue)] ++
    be16 ((e.queue.head?.map (·.notice.sequence)).getD 0) ++ be16 e.lastAssigned ++
    [byteOf ((e.report.map (·.sends)).getD 0), flagByte (e.report.any (·.due))] ++ timerBody s ++
    be16 (overflowBits e.overflowSet) ++ be16 (halfOf e.lostCount) ++ [byteOf s.cfg.active.params.retransmitTime]

/-- READ EVENTS as the management unit judges it. -/
def State.readEvents (s : State) (h : RequestHead) : State :=
  s.serveRequest h codeRead false (bodyLength h 1) fun t =>
    ((if t.events.timer = none then t.useFree 1 else t), reply .ok (eventsBody t))

/-- READ EVENTS (R161). -/
def execReadEvents (r : RequestHead) (s : State) : Host.Outcome State Fault Refusal := taken s fun s => s.readEvents r

/-- The body of READ COMMIT (R63). -/
def commitBody (s : State) : List Byte :=
  be16 s.cfg.generation ++ be32 s.clock.number ++ [flagByte s.cfg.armed.isSome] ++ be32 (s.cfg.armed.getD 0) ++
    [flagByte s.cfg.edited]

/-- READ COMMIT as the management unit judges it. -/
def State.readCommit (s : State) (h : RequestHead) : State := s.readRequest h 1 fun t => reply .ok (commitBody t)

/-- READ COMMIT (R63). -/
def execReadCommit (r : RequestHead) (s : State) : Host.Outcome State Fault Refusal := taken s fun s => s.readCommit r

end Sys2Proof.Machine
end

