-- ==== Sys2Proof/Machine/Staging.lean ====
section
/-! DEFINITION. The staging requests (R45 to R50). -/

namespace Sys2Proof.Machine

open Sys2Proof

/-- The code of STAGE_STREAM. -/
def codeStageStream : Byte := 0x10
/-- The code of STAGE_WINDOW. -/
def codeStageWindow : Byte := 0x11
/-- The code of STAGE_PARAMS. -/
def codeStageParams : Byte := 0x12

/-- What a staging request makes of the staged copy: the copy it writes, or none where it is refused, and its reply. -/
structure Judgement where
  written : Option Configuration
  answer : Reply
  deriving DecidableEq, Repr

/-- A refusal writes nothing. -/
def refuse (status : Status) (body : List Byte) : Judgement := { written := none, answer := reply status body }

/-- A request that is taken writes a copy and is answered OK. -/
def write (c : Configuration) (body : List Byte) : Judgement := { written := some c, answer := reply .ok body }

/-- The position of the first field that lies outside its range (R46, R48, R50, R168). -/
def firstFailing (fields : List (Nat × Bool)) : Option Nat := (fields.find? fun f => !f.2).map (·.1)

/-- INVALID for staging: the reason, and the start of an overlapping window or 0 (11.2). -/
def invalid (reason : Byte) (start : Nat) : Judgement := refuse .invalid (reason :: be32 (wordOf start))

/-- A judgement takes effect: what is written becomes the staged copy, and the edited mark is set (R43, R45). -/
def ConfigUnit.stage (c : ConfigUnit) (j : Judgement) : ConfigUnit :=
  match j.written with
  | some x => { c with staged := x, edited := true }
  | none => c

/-- A staging request as the management and configuration units judge it: EDIT only, BUSY_ARMED while a commit is armed, then its own
checks against the staged copy (R45). -/
def State.stageRequest (s : State) (h : RequestHead) (code : Byte) (lengthOk : Bool) (judge : Configuration → Judgement) :
    State :=
  s.serveRequest h code true lengthOk fun t =>
    if t.cfg.armed.isSome then (t, reply .busyArmed [])
    else (t.setCfg (t.cfg.stage (judge t.cfg.staged)), (judge t.cfg.staged).answer)

/-- A staging request whose operation the gate does not know: BUSY_ARMED while a commit is armed, and RANGE otherwise (R168). The manual gives the
operation no field position: the byte of the body that holds one is a free value (log entry 6). -/
def State.stageUnknown (s : State) (h : RequestHead) (code : Byte) : State :=
  s.serveRequest h code true true fun t =>
    if t.cfg.armed.isSome then (t, reply .busyArmed []) else (t.useFree 1, reply .range (t.freeBytes 1))

/-! ### STAGE_STREAM -/

/-- The entry a body carries, once its fields have been found in range (R22). -/
def streamBodyEntry (b : StreamBody) : StreamEntry :=
  { stream := b.stream.setWidth 12, ingress := (portOf b.ingress).getD .t, egress := portSetOf b.egress,
    cls := classOf b.cls, maxPayload := b.maxPayload.toNat, budget := b.budget.toNat, lifetime := b.lifetime.toNat,
    report := reportSetOf b.report }

/-- The range step of STAGE_STREAM PUT, by field position (R46, step 1). -/
def streamBodyFields (b : StreamBody) : List (Nat × Bool) :=
  [(1, (streamOf b.stream).isSome), (2, (portOf b.ingress).isSome), (3, b.egress.toNat < 32), (4, b.cls.toNat < 4),
    (5, b.maxPayload.toNat ≤ 1024), (6, b.budget.toNat ≤ 255), (7, 1 ≤ b.lifetime.toNat ∧ b.lifetime.toNat ≤ 16),
    (8, b.report.toNat < 8)]

/-- A stream entry put in its place by stream number, in the place of an entry of the same number. -/
def putStream (e : StreamEntry) : List StreamEntry → List StreamEntry
  | [] => [e]
  | x :: xs =>
    if x.stream = e.stream then e :: xs
    else if e.stream.toNat < x.stream.toNat then e :: x :: xs
    else x :: putStream e xs

/-- The checks of STAGE_STREAM PUT (R46). -/
def judgeStreamPut (b : StreamBody) (c : Configuration) : Judgement :=
  match firstFailing (streamBodyFields b) with
  | some pos => refuse .range [byteOf pos]
  | none =>
    let e := streamBodyEntry b
    if e.egress = PerPort.fill false then invalid 1 0
    else if e.egress.get e.ingress then invalid 2 0
    else if streamEntry c e.stream = none ∧ Config.tableCapacity ≤ c.streams.length then refuse .tableFull []
    else write { c with streams := putStream e c.streams } []

/-- STAGE_STREAM PUT as the gate judges it. -/
def State.stageStreamPut (s : State) (h : RequestHead) (b : StreamBody) : State :=
  s.stageRequest h codeStageStream (bodyLength h 11) (judgeStreamPut b)

/-- STAGE_STREAM PUT (R46). -/
def execStageStreamPut (r : RequestHead) (b : StreamBody) (s : State) : Host.Outcome State Fault Refusal :=
  taken s fun s => s.stageStreamPut r b

/-- The checks of STAGE_STREAM DELETE (R47). -/
def judgeStreamDelete (stream : Half) (c : Configuration) : Judgement :=
  match streamOf stream with
  | none => refuse .range [1]
  | some n =>
    if streamEntry c n = none then refuse .notFound []
    else write { c with streams := c.streams.filter fun e => e.stream ≠ n } []

/-- STAGE_STREAM DELETE as the gate judges it. -/
def State.stageStreamDelete (s : State) (h : RequestHead) (stream : Half) : State :=
  s.stageRequest h codeStageStream (bodyLength h 3) (judgeStreamDelete stream)

/-- STAGE_STREAM DELETE (R47). -/
def execStageStreamDelete (r : RequestHead) (stream : Half) (s : State) : Host.Outcome State Fault Refusal :=
  taken s fun s => s.stageStreamDelete r stream

/-! ### STAGE_WINDOW -/

/-- The largest end of a window that staging admits (R48). -/
def latestStop : Nat := 12499992

/-- The window a body carries, once its fields have been found in range (R1). -/
def windowBodyWindow (b : WindowBody) : Window :=
  { port := (portOf b.port).getD .t, start := b.start.toNat, length := b.length.toNat, classes := classSetOf b.classes }

/-- The range step of STAGE_WINDOW PUT, by field position (R48, step 1): the end is judged with the length. -/
def windowBodyFields (b : WindowBody) : List (Nat × Bool) :=
  [(1, (portOf b.port).isSome), (3, b.start.toNat + b.length.toNat ≤ latestStop), (4, b.classes.toNat < 16)]

/-- Two windows have the same key (R1). -/
def Window.sameKey (v w : Window) : Bool := v.port = w.port && v.start = w.start

/-- The order of the schedule's listing: by port, then by start. -/
def Window.before (v w : Window) : Bool :=
  (portCode v.port).toNat < (portCode w.port).toNat || (v.port = w.port && v.start < w.start)

/-- Two windows overlap: the span of one contains the start of the other (R2, R48). -/
def Window.overlaps (v w : Window) : Bool :=
  (v.start ≤ w.start && w.start < v.stop) || (w.start ≤ v.start && v.start < w.stop)

/-- A window put in its place, in the place of a window of the same key. -/
def putWindow (w : Window) : List Window → List Window
  | [] => [w]
  | x :: xs => if x.sameKey w then w :: xs else if w.before x then w :: x :: xs else x :: putWindow w xs

/-- The checks of STAGE_WINDOW PUT (R48). -/
def judgeWindowPut (b : WindowBody) (c : Configuration) : Judgement :=
  match firstFailing (windowBodyFields b) with
  | some pos => refuse .range [byteOf pos]
  | none =>
    let w := windowBodyWindow b
    if w.length < 32 then invalid 3 0
    else if w.classes = Quad.fill false then invalid 4 0
    else if w.port ≠ .t ∧ w.start < 32 then invalid 5 0
    else
      match (portWindows c w.port).find? fun v => !v.sameKey w && v.overlaps w with
      | some v => invalid 6 v.start
      | none =>
        if c.windows.any (·.sameKey w) = false ∧ Config.windowCapacity ≤ c.windows.length then refuse .tableFull []
        else write { c with windows := putWindow w c.windows } []

/-- STAGE_WINDOW PUT as the gate judges it. -/
def State.stageWindowPut (s : State) (h : RequestHead) (b : WindowBody) : State :=
  s.stageRequest h codeStageWindow (bodyLength h 11) (judgeWindowPut b)

/-- STAGE_WINDOW PUT (R48). -/
def execStageWindowPut (r : RequestHead) (b : WindowBody) (s : State) : Host.Outcome State Fault Refusal :=
  taken s fun s => s.stageWindowPut r b

/-- The checks of STAGE_WINDOW DELETE (R49). -/
def judgeWindowDelete (port : Byte) (start : Word) (c : Configuration) : Judgement :=
  match portOf port with
  | none => refuse .range [1]
  | some p =>
    if c.windows.any fun w => w.port = p && w.start = start.toNat then
      write { c with windows := c.windows.filter fun w => !(w.port = p && w.start = start.toNat) } []
    else refuse .notFound []

/-- STAGE_WINDOW DELETE as the gate judges it. -/
def State.stageWindowDelete (s : State) (h : RequestHead) (port : Byte) (start : Word) : State :=
  s.stageRequest h codeStageWindow (bodyLength h 6) (judgeWindowDelete port start)

/-- STAGE_WINDOW DELETE (R49). -/
def execStageWindowDelete (r : RequestHead) (port : Byte) (start : Word) (s : State) : Host.Outcome State Fault Refusal :=
  taken s fun s => s.stageWindowDelete r port start

/-- The checks of STAGE_WINDOW CLEAR_PORT (R49). -/
def judgeWindowClear (port : Byte) (c : Configuration) : Judgement :=
  match portOf port with
  | none => refuse .range [1]
  | some p => write { c with windows := c.windows.filter fun w => w.port ≠ p } [byteOf (portWindows c p).length]

/-- STAGE_WINDOW CLEAR_PORT as the gate judges it. -/
def State.stageWindowClearPort (s : State) (h : RequestHead) (port : Byte) : State :=
  s.stageRequest h codeStageWindow (bodyLength h 2) (judgeWindowClear port)

/-- STAGE_WINDOW CLEAR_PORT (R49). -/
def execStageWindowClearPort (r : RequestHead) (port : Byte) (s : State) : Host.Outcome State Fault Refusal :=
  taken s fun s => s.stageWindowClearPort r port

/-! ### STAGE_PARAMS -/

/-- A parameter's position where it is carried, and whether its value is in range: one that is not carried cannot fail. -/
def carried {α : Type} (pos : Nat) (x : Option α) (inRange : α → Bool) : Nat × Bool := (pos, x.all inRange)

/-- The range check of STAGE_PARAMS, by parameter in the order of R42 (R50); the position is the presence bit plus 1. -/
def paramsBodyFields (b : ParamsBody) : List (Nat × Bool) :=
  [carried 1 b.cycleLength fun x => 1250 ≤ x.toNat && x.toNat ≤ 12500000,
    carried 2 b.syncOffset fun x => x.toNat ≤ 12499999,
    carried 3 b.halfWidth fun x => 16 ≤ x.toNat && x.toNat ≤ 4096,
    carried 4 b.lockTolerance fun x => 1 ≤ x.toNat && x.toNat ≤ 64,
    carried 5 b.stepThreshold fun x => 2 ≤ x.toNat && x.toNat ≤ 4095,
    carried 6 b.holdoverLimit fun x => 1 ≤ x.toNat && x.toNat ≤ 255,
    carried 7 b.policy fun x => x.toNat ≤ 1,
    carried 8 b.retransmitTime fun x => 1 ≤ x.toNat && x.toNat ≤ 255]

/-- The policy a value in range names. -/
def policyOf (x : Byte) : Policy := if x = 0 then .pass else .block

/-- The parameters with the carried ones written (R50). -/
def applyParams (b : ParamsBody) (p : Params) : Params :=
  { cycleLength := (b.cycleLength.map (·.toNat)).getD p.cycleLength
    syncOffset := (b.syncOffset.map (·.toNat)).getD p.syncOffset
    halfWidth := (b.halfWidth.map (·.toNat)).getD p.halfWidth
    lockTolerance := (b.lockTolerance.map (·.toNat)).getD p.lockTolerance
    stepThreshold := (b.stepThreshold.map (·.toNat)).getD p.stepThreshold
    holdoverLimit := (b.holdoverLimit.map (·.toNat)).getD p.holdoverLimit
    policy := (b.policy.map policyOf).getD p.policy
    retransmitTime := (b.retransmitTime.map (·.toNat)).getD p.retransmitTime }

/-- The body length that the presence mask calls for (11.2, R168). -/
def paramsBodySize (b : ParamsBody) : Nat :=
  1 + 4 * b.cycleLength.isSome.toNat + 4 * b.syncOffset.isSome.toNat + 2 * b.halfWidth.isSome.toNat +
    b.lockTolerance.isSome.toNat + 2 * b.stepThreshold.isSome.toNat + b.holdoverLimit.isSome.toNat +
    b.policy.isSome.toNat + b.retransmitTime.isSome.toNat

/-- The check of STAGE_PARAMS (R50). -/
def judgeParams (b : ParamsBody) (c : Configuration) : Judgement :=
  match firstFailing (paramsBodyFields b) with
  | some pos => refuse .range [byteOf pos]
  | none => write { c with params := applyParams b c.params } []

/-- STAGE_PARAMS as the gate judges it. -/
def State.stageParams (s : State) (h : RequestHead) (b : ParamsBody) : State :=
  s.stageRequest h codeStageParams (bodyLength h (paramsBodySize b)) (judgeParams b)

/-- STAGE_PARAMS (R50). -/
def execStageParams (r : RequestHead) (b : ParamsBody) (s : State) : Host.Outcome State Fault Refusal :=
  taken s fun s => s.stageParams r b

end Sys2Proof.Machine
end

