-- ==== Sys2Proof/Machine/Commit.lean ====
section
/-! DEFINITION. COMMIT with its validation, and ABORT (R51, R52, R58). -/

namespace Sys2Proof.Machine

open Sys2Proof

/-- The code of COMMIT. -/
def codeCommit : Byte := 0x13
/-- The code of ABORT. -/
def codeAbort : Byte := 0x14

/-! ### Validation (R52) -/

/-- A check that fails, with the offender it names. -/
structure Offence where
  check : Nat
  stream : Option StreamNo
  port : Option Port
  index : Option Nat
  deriving DecidableEq, Repr

/-- Check 1: every window ends at or before L − 8. The offender is the first window by port and index. -/
def checkEnds (c : Configuration) : Option Offence :=
  Port.all.findSome? fun p =>
    ((portWindows c p).findIdx? fun w => c.params.cycleLength < w.stop + 8).map fun i => ⟨1, none, some p, some i⟩

/-- Check 2: O − W is at least 0, and O + W + 32 at most L − 8. -/
def checkSyncWindow (c : Configuration) : Option Offence :=
  let q := c.params
  if q.halfWidth ≤ q.syncOffset ∧ q.syncOffset + q.halfWidth + 40 ≤ q.cycleLength then none else some ⟨2, none, none, none⟩

/-- Check 3: lock tolerance below step threshold below W. -/
def checkTolerances (c : Configuration) : Option Offence :=
  let q := c.params
  if q.lockTolerance < q.stepThreshold ∧ q.stepThreshold < q.halfWidth then none else some ⟨3, none, none, none⟩

/-- Check 4: T has a window of class 0 of length 152 or more. -/
def checkTrunk (c : Configuration) : Option Offence :=
  if (portWindows c .t).any fun w => w.classes.get 0 && 152 ≤ w.length then none else some ⟨4, none, none, none⟩

/-- The first stream and port for which no window of the port serves the stream in the sense given. -/
def unserved (c : Configuration) (check : Nat) (serves : StreamEntry → Window → Bool) : Option Offence :=
  c.streams.findSome? fun e =>
    (Port.all.find? fun p => e.egress.get p && !(portWindows c p).any (serves e)).map
      fun p => ⟨check, some e.stream, some p, none⟩

/-- Check 5: each egress port of every stream has a window of the stream's class. -/
def checkClasses (c : Configuration) : Option Offence := unserved c 5 fun e w => w.classes.get e.cls

/-- Check 6: each egress port of every stream has a window of its class that holds its largest frame. -/
def checkLengths (c : Configuration) : Option Offence :=
  unserved c 6 fun e w => w.classes.get e.cls && occupancy e.maxPayload ≤ w.length

/-- The first check that fails, in the order of R52. -/
def validate (c : Configuration) : Option Offence :=
  (checkEnds c).or ((checkSyncWindow c).or ((checkTolerances c).or ((checkTrunk c).or
    ((checkClasses c).or (checkLengths c)))))

/-- The body of INVALID for COMMIT (11.2). -/
def Offence.body (o : Offence) : List Byte :=
  [byteOf o.check] ++ be16 ((o.stream.map fun x => x.setWidth 16).getD 0) ++
    [(o.port.map portCode).getD 0xFF, (o.index.map byteOf).getD 0xFF]

/-! ### COMMIT (R51) -/

/-- The target a COMMIT resolves to at a cycle number: the next one for 0, or one later by 1 to 1,024 (R51). -/
def resolveTarget (now target : Word) : Option Word :=
  if target = 0 then some (now + 1)
  else if 1 ≤ (target - now).toNat ∧ (target - now).toNat ≤ 1024 then some target
  else none

/-- COMMIT as the configuration unit carries it out at a cycle number (R51, R52). -/
def ConfigUnit.commit (c : ConfigUnit) (now target : Word) : ConfigUnit × Reply :=
  if c.armed.isSome then (c, reply .busyArmed [])
  else
    match resolveTarget now target with
    | none => (c, reply .range (be32 now))
    | some x =>
      match validate c.staged with
      | some o => (c, reply .invalid o.body)
      | none => ({ c with armed := some x }, reply .armed (be32 x ++ be16 c.generation))

/-- COMMIT as the gate judges it. -/
def State.commitRequest (s : State) (h : RequestHead) (target : Word) : State :=
  s.serveRequest h codeCommit true (bodyLength h 4) fun t =>
    (t.setCfg (t.cfg.commit t.clock.number target).1, (t.cfg.commit t.clock.number target).2)

/-- COMMIT (R51). -/
def execCommit (r : RequestHead) (target : Word) (s : State) : Host.Outcome State Fault Refusal :=
  taken s fun s => s.commitRequest r target

/-! ### ABORT (R58) -/

/-- The staged copy after an ABORT: with DISCARD equal to the active one, with the edited mark clear; with KEEP as it was. -/
def ConfigUnit.discardIf (c : ConfigUnit) (discard : Bool) : ConfigUnit :=
  if discard then { c with staged := c.active, edited := false } else c

/-- ABORT as the configuration unit carries it out (R58). -/
def ConfigUnit.abort (c : ConfigUnit) (option : Byte) (expected : Half) : ConfigUnit × Reply :=
  if 1 < option.toNat then (c, reply .range [])
  else if expected ≠ c.generation then (c, reply .tooLate (be16 c.generation))
  else
    match c.armed with
    | some target => ({ c with armed := none }.discardIf (option = 1), reply .disarmed (be32 target))
    | none => (c.discardIf (option = 1), reply .ok [])

/-- ABORT as the gate judges it. -/
def State.abortRequest (s : State) (h : RequestHead) (option : Byte) (expected : Half) : State :=
  s.serveRequest h codeAbort true (bodyLength h 3) fun t =>
    (t.setCfg (t.cfg.abort option expected).1, (t.cfg.abort option expected).2)

/-- ABORT (R58). -/
def execAbort (r : RequestHead) (option : Byte) (expected : Half) (s : State) : Host.Outcome State Fault Refusal :=
  taken s fun s => s.abortRequest r option expected

end Sys2Proof.Machine
end

