-- ==== Sys2Proof/Machine/Control.lean ====
section
/-! DEFINITION. ACK, DRAIN, RESUME, CLEAR_COUNTERS and RESTART. -/

namespace Sys2Proof.Machine

open Sys2Proof

/-- The code of ACK. -/
def codeAck : Byte := 0x05
/-- The code of DRAIN. -/
def codeDrain : Byte := 0x20
/-- The code of RESUME. -/
def codeResume : Byte := 0x21
/-- The code of CLEAR_COUNTERS. -/
def codeClearCounters : Byte := 0x22
/-- The code of RESTART. -/
def codeRestart : Byte := 0x23

/-! ### ACK (R158) -/

/-- A SENT notice that an ACK of `n` covers: its sequence number is not later than `n`. -/
def QueuedNotice.covered (n : Half) (x : QueuedNotice) : Bool := x.sent && !later x.notice.sequence n

/-- Whether an ACK of `n` is out of range: an UNSENT notice is not later than `n`, or `n` is later than last assigned. -/
def EventUnit.ackOutOfRange (e : EventUnit) (n : Half) : Bool :=
  e.queue.any (fun x => !x.sent && !later x.notice.sequence n) || later n e.lastAssigned

/-- The SENT notices that an ACK covers are removed; where none remains, the report ends and the timer stops. -/
def EventUnit.acknowledge (e : EventUnit) (n : Half) : EventUnit :=
  let q := e.queue.filter fun x => !x.covered n
  if q.any (·.sent) then { e with queue := q } else { e with queue := q, report := none, timer := none }

/-- The body of RANGE for ACK: whether a report is outstanding, and its newest notice (R158, 11.2). -/
def EventUnit.ackRangeBody (e : EventUnit) : List Byte :=
  flagByte e.report.isSome :: be16 (((sentNotices e.queue).getLast?.map (·.sequence)).getD 0)

/-- ACK as the event unit carries it out (R158). -/
def EventUnit.ack (e : EventUnit) (n : Half) : EventUnit × Reply :=
  if e.ackOutOfRange n then (e, reply .range e.ackRangeBody)
  else (e.acknowledge n, reply .ok [byteOf (e.queue.filter (QueuedNotice.covered n)).length])

/-- ACK as the gate judges it. -/
def State.ackRequest (s : State) (h : RequestHead) (n : Half) : State :=
  s.serveRequest h codeAck false (bodyLength h 2) fun t => (t.setEvents (t.events.ack n).1, (t.events.ack n).2)

/-- ACK (R158). -/
def execAck (r : RequestHead) (n : Half) (s : State) : Host.Outcome State Fault Refusal :=
  taken s fun s => s.ackRequest r n

/-! ### DRAIN and RESUME (R124, R129) -/

/-- The drain option a value names. -/
def drainOptionOf (x : Byte) : Option DrainOption :=
  if x = 0 then some .flush else if x = 1 then some .empty else none

/-- PORT_STATE: the port's admin state and link state (R124, R129). -/
def portStateReply (u : PortUnit) : Reply := reply .portState [adminByte u.admin, linkByte u.link]

/-- A DRAIN that is taken (R124, step 4), up to the completion test: DRAINING, the drain record, and with FLUSH the flush of the class queues, which
TX_FLUSHED counts (R76). -/
def State.startDrain (s : State) (p : Port) (o : DrainOption) : State :=
  let n := match o with | .flush => (s.ports.get p).queued | .empty => 0
  let t := match o with
    | .flush => (s.flushQueues p).onCount p fun k => { k with txFlushed := k.txFlushed + wordOf n }
    | .empty => s
  t.onPort p fun u => { u with admin := .draining, drain := some { option := o, cycle := s.clock.number, flushed := n } }

/-- DRAIN as port control carries it out (R124). -/
def State.takeDrain (s : State) (port option : Byte) : State × Reply :=
  match portOf port, drainOptionOf option with
  | some p, some o =>
    if p = .t ∨ (s.ports.get p).admin ≠ .opened then (s, portStateReply (s.ports.get p))
    else
      let t := s.startDrain p o
      let n := (((t.ports.get p).drain).map (·.flushed)).getD 0
      let t := t.completeDrain p
      (t, reply .ok ([portCode p, adminByte (t.ports.get p).admin] ++ be32 (wordOf n)))
  | _, _ => (s, reply .range [])

/-- DRAIN as the gate judges it. -/
def State.drainRequest (s : State) (h : RequestHead) (port option : Byte) : State :=
  s.serveRequest h codeDrain true (bodyLength h 2) fun t => t.takeDrain port option

/-- DRAIN (R124). -/
def execDrain (r : RequestHead) (port : Byte) (option : Byte) (s : State) : Host.Outcome State Fault Refusal :=
  taken s fun s => s.drainRequest r port option

/-- RESUME as port control carries it out (R129). -/
def State.takeResume (s : State) (port : Byte) : State × Reply :=
  match portOf port with
  | none => (s, reply .range [])
  | some p =>
    let u := s.ports.get p
    if u.admin = .opened then (s, portStateReply u)
    else
      (s.onPort p fun u => { u with admin := .opened, drain := none },
        reply .ok [portCode p, adminByte u.admin, byteOf u.queued])

/-- RESUME as the gate judges it. -/
def State.resumeRequest (s : State) (h : RequestHead) (port : Byte) : State :=
  s.serveRequest h codeResume true (bodyLength h 1) fun t => t.takeResume port

/-- RESUME (R129). -/
def execResume (r : RequestHead) (port : Byte) (s : State) : Host.Outcome State Fault Refusal :=
  taken s fun s => s.resumeRequest r port

/-! ### CLEAR_COUNTERS (R144) -/

/-- A record with its six counters at 0. -/
def StreamRecord.clearCounters (r : StreamRecord) : StreamRecord :=
  { r with received := 0, forwarded := 0, policed := 0, oversize := 0, noQueue := 0, late := 0 }

/-- Every counter of the gate is set to 0 (R144). -/
def State.clearCounters (s : State) : State :=
  { s with
    classifier := { s.classifier with records := s.classifier.records.map StreamRecord.clearCounters }
    ports := s.ports.map fun u => { u with count := .zero }
    trunkCount := .zero }

/-- CLEAR_COUNTERS as the gate judges it. -/
def State.clearRequest (s : State) (h : RequestHead) : State :=
  s.serveRequest h codeClearCounters true (bodyLength h 0) fun t => (t.clearCounters, reply .ok [])

/-- CLEAR_COUNTERS (R144). -/
def execClearCounters (r : RequestHead) (s : State) : Host.Outcome State Fault Refusal :=
  taken s fun s => s.clearRequest r

/-! ### RESTART (R145) -/

/-- RESTART as the management unit carries it out: the first one sets the mark, and its response is the restart response. -/
def State.takeRestart (s : State) : State × Reply :=
  ({ s with mgmt := { s.mgmt with restartPending := true } },
    { status := .ok, body := [], marked := !s.mgmt.restartPending })

/-- RESTART as the gate judges it. -/
def State.restartRequest (s : State) (h : RequestHead) : State :=
  s.serveRequest h codeRestart true (bodyLength h 0) State.takeRestart

/-- RESTART (R145). -/
def execRestart (r : RequestHead) (s : State) : Host.Outcome State Fault Refusal := taken s fun s => s.restartRequest r

end Sys2Proof.Machine
end

