-- ==== Sys2Proof/Machine/Requests.lean ====
section
/-! DEFINITION. A request frame that the trunk receiver delivers is read as the request its bytes spell (11.2, R134, R168). -/

namespace Sys2Proof.Machine

open Sys2Proof

/-- The request head of a delivered frame: its payload's first byte is the code and its second the flags. -/
def requestHead (source : Byte) (tag length : Half) (payload : List Byte) : RequestHead :=
  { source := source, tag := tag, flags := byteAt payload 1, length := length }

/-- The body of STAGE_STREAM PUT after the operation. -/
def streamBodyAt (b : List Byte) : StreamBody :=
  { stream := halfAt b 1, ingress := byteAt b 3, egress := byteAt b 4, cls := byteAt b 5, maxPayload := halfAt b 6,
    budget := byteAt b 8, lifetime := byteAt b 9, report := byteAt b 10 }

/-- The body of STAGE_WINDOW PUT after the operation. -/
def windowBodyAt (b : List Byte) : WindowBody :=
  { port := byteAt b 1, start := wordAt b 2, length := wordAt b 6, classes := byteAt b 10 }

/-- The place of the parameter of each presence bit: one past the mask and the parameters present before it. -/
def paramPlace (mask : Byte) (sizes : List Nat) (bit : Nat) : Nat :=
  1 + (((sizes.zipIdx.take bit).filter fun x => bitOf mask x.2).map (·.1)).sum

/-- The sizes of the eight parameters in mask order (11.2). -/
def paramSizes : List Nat := [4, 4, 2, 1, 2, 1, 1, 1]

/-- A parameter read where the mask has its bit. -/
def paramAt {α : Type} (b : List Byte) (read : List Byte → Nat → α) (bit : Nat) : Option α :=
  if bitOf (byteAt b 0) bit then some (read b (paramPlace (byteAt b 0) paramSizes bit)) else none

/-- The body of STAGE_PARAMS. -/
def paramsBodyAt (b : List Byte) : ParamsBody :=
  { cycleLength := paramAt b wordAt 0, syncOffset := paramAt b wordAt 1, halfWidth := paramAt b halfAt 2,
    lockTolerance := paramAt b byteAt 3, stepThreshold := paramAt b halfAt 4, holdoverLimit := paramAt b byteAt 5,
    policy := paramAt b byteAt 6, retransmitTime := paramAt b byteAt 7 }

/-- READ by its selector (R143). -/
def State.readBySelector (s : State) (h : RequestHead) (b : List Byte) : State :=
  match (byteAt b 0).toNat with
  | 0x01 => s.readIdentity h
  | 0x02 => s.readStream h (byteAt b 1) (halfAt b 2)
  | 0x03 => s.readWindow h (byteAt b 1) (byteAt b 2) (byteAt b 3)
  | 0x04 => s.readParams h (byteAt b 1)
  | 0x05 => s.readStreamCounters h (halfAt b 1)
  | 0x06 => s.readPort h (byteAt b 1)
  | 0x07 => s.readSync h
  | 0x08 => s.readSessions h
  | 0x09 => s.readEvents h
  | 0x0A => s.readCommit h
  | _ => s.readUnknown h

/-- STAGE_STREAM by its operation. -/
def State.stageStreamBy (s : State) (h : RequestHead) (b : List Byte) : State :=
  match (byteAt b 0).toNat with
  | 1 => s.stageStreamPut h (streamBodyAt b)
  | 2 => s.stageStreamDelete h (halfAt b 1)
  | _ => s.stageUnknown h codeStageStream

/-- STAGE_WINDOW by its operation. -/
def State.stageWindowBy (s : State) (h : RequestHead) (b : List Byte) : State :=
  match (byteAt b 0).toNat with
  | 1 => s.stageWindowPut h (windowBodyAt b)
  | 2 => s.stageWindowDelete h (byteAt b 1) (wordAt b 2)
  | 3 => s.stageWindowClearPort h (byteAt b 1)
  | _ => s.stageUnknown h codeStageWindow

/-- Whether the length a code calls for depends on the first byte of the body (R168). -/
def dependsOnBody (code : Byte) : Bool :=
  code = codeRead || code = codeStageStream || code = codeStageWindow || code = codeStageParams

/-- A request is taken by its code (11.2). A request too short for a code and flags, and an empty body where the length depends on its first byte, is
judged as one that no unit carries out (R134, R168). -/
def State.deliverRequest (s : State) (source : Byte) (tag length : Half) (payload : List Byte) : State :=
  let h := requestHead source tag length payload
  let code := byteAt payload 0
  let b := payload.drop 2
  if length.toNat < 2 ∨ (length.toNat = 2 ∧ dependsOnBody code) then s.unknownRequest h code
  else
    match code.toNat with
    | 0x01 => s.openRequest h (byteAt b 0) (halfAt b 1)
    | 0x02 => s.closeRequest h
    | 0x03 => s.renewRequest h
    | 0x04 => s.readBySelector h b
    | 0x05 => s.ackRequest h (halfAt b 0)
    | 0x10 => s.stageStreamBy h b
    | 0x11 => s.stageWindowBy h b
    | 0x12 => s.stageParams h (paramsBodyAt b)
    | 0x13 => s.commitRequest h (wordAt b 0)
    | 0x14 => s.abortRequest h (byteAt b 0) (halfAt b 1)
    | 0x20 => s.drainRequest h (byteAt b 0) (byteAt b 1)
    | 0x21 => s.resumeRequest h (byteAt b 0)
    | 0x22 => s.clearRequest h
    | 0x23 => s.restartRequest h
    | _ => s.unknownRequest h code

/-! ### The body of each request as a manager sends it (11.2) -/

/-- The bytes of a parameter, where it is carried. -/
def paramBytes {α : Type} (x : Option α) (bytes : α → List Byte) : List Byte := (x.map bytes).getD []

/-- The presence mask of STAGE_PARAMS. -/
def paramsMask (b : ParamsBody) : Byte :=
  byteOf (b.cycleLength.isSome.toNat + 2 * b.syncOffset.isSome.toNat + 4 * b.halfWidth.isSome.toNat +
    8 * b.lockTolerance.isSome.toNat + 16 * b.stepThreshold.isSome.toNat + 32 * b.holdoverLimit.isSome.toNat +
    64 * b.policy.isSome.toNat + 128 * b.retransmitTime.isSome.toNat)

/-- The body of STAGE_PARAMS. -/
def paramsBodyBytes (b : ParamsBody) : List Byte :=
  paramsMask b :: (paramBytes b.cycleLength be32 ++ paramBytes b.syncOffset be32 ++ paramBytes b.halfWidth be16 ++
    paramBytes b.lockTolerance (fun x => [x]) ++ paramBytes b.stepThreshold be16 ++
    paramBytes b.holdoverLimit (fun x => [x]) ++ paramBytes b.policy (fun x => [x]) ++
    paramBytes b.retransmitTime fun x => [x])

/-- The body of a request row; other rows have none. -/
def requestBody : Instr → List Byte
  | .openSession _ mode lease => mode :: be16 lease
  | .closeSession _ => []
  | .renew _ => []
  | .readIdentity _ => [0x01]
  | .readStream _ copy stream => [0x02, copy] ++ be16 stream
  | .readWindow _ copy port index => [0x03, copy, port, index]
  | .readParams _ copy => [0x04, copy]
  | .readStreamCounters _ stream => 0x05 :: be16 stream
  | .readPort _ port => [0x06, port]
  | .readSync _ => [0x07]
  | .readSessions _ => [0x08]
  | .readEvents _ => [0x09]
  | .readCommit _ => [0x0A]
  | .ack _ n => be16 n
  | .stageStreamPut _ b =>
    [1] ++ be16 b.stream ++ [b.ingress, b.egress, b.cls] ++ be16 b.maxPayload ++ [b.budget, b.lifetime, b.report]
  | .stageStreamDelete _ stream => 2 :: be16 stream
  | .stageWindowPut _ b => [1, b.port] ++ be32 b.start ++ be32 b.length ++ [b.classes]
  | .stageWindowDelete _ port start => [2, port] ++ be32 start
  | .stageWindowClearPort _ port => [3, port]
  | .stageParams _ b => paramsBodyBytes b
  | .commit _ target => be32 target
  | .abort _ option expected => option :: be16 expected
  | .drain _ port option => [port, option]
  | .resume _ port => [port]
  | .clearCounters _ => []
  | .restart _ => []
  | .resetAssert | .resetRelease _ _ _ | .naturalCycleStart | .lifetimeExpiry _ | .swap | .windowOpen _ _ | .windowClose _ _
  | .missedSyncEvaluation | .frameStart _ | .headerDecision _ _ | .frameEnd _ _ | .syncFrame _ _ _ _ | .dataTxEnd _
  | .ownTxEnd | .syncTxEnd _ | .choice _ | .linkLoss _ | .linkReturn _ | .drainCompletion _ | .leaseExpiry _
  | .retransmitTimerExpiry | .deferredRetransmission | .reportBuild | .overflowQueued | .warmRestart
  | .unknownRequestCode _ _ => []

end Sys2Proof.Machine
end

