-- ==== Sys2Proof/Machine/Cycle.lean ====
section
/-! DEFINITION. The cycle: natural cycle starts, swaps, expiry, windows and the missed-sync evaluation. -/

namespace Sys2Proof.Machine

open Sys2Proof

/-- The generation after this one; 0 does not come back (R44). -/
def nextGeneration (g : Half) : Half := if g = 65535 then 1 else g + 1

/-- The run-time records of a new table: kept for the streams that have one, fresh for the others (R27). -/
def rebuildRecords (old : List StreamRecord) (c : Configuration) : List StreamRecord :=
  c.streams.map fun e => (streamRecord old e.stream).getD (freshRecord e)

/-- The swap (R54): the staged copy becomes active, the generation advances, the armed commit and the edited mark are gone, the
records are rebuilt, COMMIT_DONE is raised, and every egress unit is asked for a choice (R11). -/
def State.takeSwap (s : State) : State :=
  let g := nextGeneration s.cfg.generation
  let t := (s.setCfg { s.cfg with active := s.cfg.staged, generation := g, armed := none, edited := false }).setRecords
    (rebuildRecords s.classifier.records s.cfg.staged)
  (t.raise .commitDone none none (g.setWidth 32)).promptAll

/-- The branch sync frame of a cycle start is offered to a branch: sent where the port is UP, OPEN and IDLE, skipped and counted where
it is BUSY (R101, R102). -/
def State.offerSync (s : State) (p : Port) : State :=
  let u := s.ports.get p
  if u.link ∧ u.admin = .opened then
    if u.tx.isIdle then
      s.onPort p fun u =>
        { u with
          tx := .busy (.sync s.straps.station s.clock.number s.cfg.active.params.cycleLength) (occupancy 8)
            (occupancy 8) }
    else s.onCount p fun k => { k with syncSkipped := k.syncSkipped + 1 }
  else s

/-- The timer becomes 0 and the cycle number advances; the accepted mark and the mismatch mark are cleared, and the evaluation of the
new cycle is still to come (R84, R85). -/
def State.turnCycle (s : State) : State :=
  ((s.setClock { s.clock with timer := 0, number := s.clock.number + 1 }).setSync
    { s.sync with accepted := false, mismatchMark := none }).setAux { s.aux with evaluated := false }

/-- The work of a cycle start under the configuration active for the cycle that begins: the end of the cycle (R84), budgets (R25), marks
(R26, R150). -/
def State.beginCycle (s : State) : State :=
  ((s.setClock { s.clock with cycleEnd := s.cfg.active.params.cycleLength }).setClassifier
    (({ s.classifier with records := refill s.cfg.active s.classifier.records }).keepMarks s.clock.number)).setEvents
    { s.events with poolMark := none }

/-- A window of a port opens: the opening of this instant is taken, and while enforcing the egress unit is asked for a choice
(R3). -/
def State.takeOpening (s : State) (p : Port) : State :=
  let t := s.setAux { s.aux with openedAt := s.aux.openedAt.set p (some s.clock.elapsed) }
  if t.enforcing then t.prompt p else t

/-- A trunk window with start 0 opens at the cycle start itself (R3, R6). -/
def State.openAtZero (s : State) (p : Port) : State := if (s.windowAt p 0).isSome then s.takeOpening p else s

/-- Lifetime expiry at a natural cycle start (R73) is a step of each egress unit of its own, since R40 and R75 let other events of the instant come before
or after it: a cycle start leaves the expiry of every port for which it was not taken ahead to a LIFETIME_EXPIRY of that instant, with the number
just reached (log entry 11). -/
def State.leaveExpiries (s : State) : State :=
  s.setAux
    { s.aux with
      expiryLeft := s.aux.expiryTaken.map fun taken => if taken then none else some s.clock.number
      expiryTaken := PerPort.fill false }

/-- A natural cycle start (R84): the cycle turns, a due swap is taken, the cycle's work is done under the configuration then active, the
enforcing condition is re-evaluated, branch sync frames are offered while enforcing, the expiry of each egress unit comes due, and trunk windows with
start 0 open. -/
def State.cycleStart (s : State) : State :=
  let t := s.turnCycle
  let t := if swapDue t.cfg t.clock.number then t.takeSwap else t
  let t := t.beginCycle.reevaluate
  let t := if t.enforcing then Port.branches.foldl State.offerSync t else t
  Port.all.foldl State.openAtZero t.leaveExpiries

/-- The running timer runs on to a value of this cycle that it has not passed. -/
def State.runTo (s : State) (v : Nat) : State := s.advance (v - s.clock.timer)

/-- NATURAL_CYCLE_START: the running timer reaches the end of the cycle (R84). The expiry of R73 is the row LIFETIME_EXPIRY. -/
def execNaturalCycleStart (s : State) : Host.Outcome State Fault Refusal :=
  taken s fun s => (s.runTo s.clock.cycleEnd).cycleStart

/-- SWAP: a swap is made at a natural cycle start and nowhere else (R54, R56), so the command is the natural cycle start that the armed
target lets swap; where no commit is armed, or its target is later than the next cycle number, there is no such start. -/
def execSwap (s : State) : Host.Outcome State Fault Refusal :=
  taken s fun s =>
    if swapDue s.cfg (s.clock.number + 1) then (s.runTo s.clock.cycleEnd).cycleStart else s

/-- LIFETIME_EXPIRY: the expiry of one egress unit at the natural cycle start (R73). After the cycle start it is judged against the number just reached,
whatever choices and appends of the instant came in between. Taken ahead of the cycle start, the timer runs to the cycle's end, the new number is
the next one, and the cycle start finds this unit's expiry taken (R40, R75). DEDUCED (log entry 11): a DRAIN_DONE that an expiry taken ahead brings
about carries the old number, which is current until the cycle start is taken (R126), while its STREAM_LATE carries the new one (R74). -/
def execLifetimeExpiry (p : Port) (s : State) : Host.Outcome State Fault Refusal :=
  taken s fun s =>
    match s.aux.expiryLeft.get p with
    | some n =>
      let t := s.expirePort n p
      t.setAux { t.aux with expiryLeft := t.aux.expiryLeft.set p none }
    | none =>
      if s.clock.timer = 0 then s.expirePort s.clock.number p
      else
        let t := s.runTo s.clock.cycleEnd
        let t := t.expirePort (t.clock.number + 1) p
        t.setAux { t.aux with expiryTaken := t.aux.expiryTaken.set p true }

/-- WINDOW_OPEN: the running timer reaches the start of an active window, and while enforcing its egress unit is asked for a choice (R3). A start
already passed, or one that the cycle does not reach, opens no window. -/
def execWindowOpen (p : Port) (start : Nat) (s : State) : Host.Outcome State Fault Refusal :=
  taken s fun s =>
    if (s.windowAt p start).isSome ∧ s.clock.timer ≤ start ∧ start < s.clock.cycleEnd then
      (s.runTo start).takeOpening p
    else s

/-- WINDOW_CLOSE: the running timer reaches the end of an active window. The permission to start frames under it ends, since no window is open
from then on; a frame in flight is not touched (R3, R10). -/
def execWindowClose (p : Port) (stop : Nat) (s : State) : Host.Outcome State Fault Refusal :=
  taken s fun s =>
    if (portWindows s.cfg.active p).any (fun w => w.stop = stop) ∧ s.clock.timer ≤ stop ∧ stop ≤ s.clock.cycleEnd then
      s.runTo stop
    else s

/-- The gate enters UNSYNCED, and both counts become 0 (R91). -/
def State.loseSync (s : State) : State := (s.setSync { s.sync with good := 0, missed := 0 }).setSyncState .unsynced

/-- A missed cycle is counted, and acts by the rule of the sync state (R92 to R95). -/
def State.missCycle (s : State) : State :=
  let t := s.setTrunk { s.trunkCount with missed := s.trunkCount.missed + 1 }
  match s.sync.state with
  | .unsynced => s
  | .acquiring => t.loseSync
  | .locked =>
    if s.cfg.active.params.holdoverLimit ≤ 1 then t.loseSync
    else (t.setSync { s.sync with missed := 1 }).setSyncState .holdover
  | .holdover =>
    if s.cfg.active.params.holdoverLimit ≤ s.sync.missed + 1 then t.loseSync
    else t.setSync { s.sync with missed := s.sync.missed + 1 }

/-- MISSED_SYNC_EVALUATION: the running timer reaches O + W + 32. With the accepted mark clear, the cycle counts as missed (R95). The
evaluation is made once for each time the value is reached. -/
def execMissedSyncEvaluation (s : State) : Host.Outcome State Fault Refusal :=
  taken s fun s =>
    let v := evaluationTime s.cfg.active.params
    if s.clock.timer ≤ v ∧ v < s.clock.cycleEnd ∧ s.aux.evaluated = false then
      let t := s.runTo v
      let t := t.setAux { t.aux with evaluated := true }
      if t.sync.accepted then t else t.missCycle
    else s

end Sys2Proof.Machine
end

