-- ==== Sys2Proof/Machine/Sync.lean ====
section
/-! DEFINITION. The sync frames of the trunk: content checks, acceptance, slews, steps and the sync states. -/

namespace Sys2Proof.Machine

open Sys2Proof

/-- The correction of a slew: the error clamped to −8 … +8 (R89). -/
def slewOf (error : Int) : Int := max (-8) (min 8 error)

/-- A slew: the current cycle ends at L + c (R89). -/
def State.slew (s : State) (error : Int) : State :=
  s.setClock { s.clock with cycleEnd := ((s.cfg.active.params.cycleLength : Int) + slewOf error).toNat }

/-- Every report mark of the classifier is absent (R26). -/
def Classifier.clearMarks (c : Classifier) : Classifier :=
  { records := c.records.map fun r => { r with policedMark := none, oversizeMark := none, lateMark := none }
    unknownMarks := PerPort.fill none }

/-- A step to the master's cycle number (R90): the number and the timer are set, the end is the active L, the counts begin again, and the
state is ACQUIRING. A new number clears the report marks and the mismatch mark (R26, R85). A window whose span contains the new value is
open from the step (R5). DEDUCED (log entry 26): the number is set before the state changes, so a SYNC_STATE notice of the step carries the
new number, as the one current at the change (R90, R96). -/
def State.stepTo (s : State) (n : Word) : State :=
  let c := s.cfg.active.params
  let same := n = s.clock.number
  let t := s.setClock
    { s.clock with timer := c.syncOffset + Config.syncFrameTime, number := n, cycleEnd := c.cycleLength }
  let t := t.setSync
    { s.sync with good := 1, missed := 0, mismatchMark := if same then s.sync.mismatchMark else none }
  let t := t.setTrunk { s.trunkCount with steps := s.trunkCount.steps + 1 }
  let t := t.setClassifier (if same then s.classifier else s.classifier.clearMarks)
  let t := t.setAux
    { s.aux with
      evaluated := false, expiryTaken := PerPort.fill false, openedAt := PerPort.fill (some s.clock.elapsed) }
  t.setSyncState .acquiring

/-- An accepted sync needs a step: its error is greater in size than the threshold, or its number is not the gate's (5.6). -/
def needsStep (s : State) (threshold : Nat) (error : Int) (n : Word) : Bool :=
  threshold < error.natAbs || n ≠ s.clock.number

/-- An accepted sync is acted on by the rule of the sync state (R91 to R94). -/
def State.actOnSync (s : State) (error : Int) (n : Word) : State :=
  let c := s.cfg.active.params
  match s.sync.state with
  | .unsynced => s.stepTo n
  | .acquiring =>
    if needsStep s c.lockTolerance error n then s.stepTo n
    else
      let t := s.setSync { s.sync with good := s.sync.good + 1 }
      if 3 ≤ t.sync.good then t.setSyncState .locked else t
  | .locked => if needsStep s c.stepThreshold error n then s.stepTo n else s.slew error
  | .holdover =>
    if needsStep s c.stepThreshold error n then s.stepTo n
    else
      let t := s.slew error
      (t.setSync { t.sync with missed := 0 }).setSyncState .locked

/-- A sync is accepted (R88, step 3). -/
def State.acceptSync (s : State) (error : Int) (n : Word) : State :=
  ((s.setSync { s.sync with accepted := true, lastError := some error }).setTrunk
    { s.trunkCount with accepted := s.trunkCount.accepted + 1 }).actOnSync error n

/-- A sync whose cycle length is not the active L is discarded and counted, and reported once a cycle (R87). -/
def State.mismatchSync (s : State) (received : Word) : State :=
  let t := s.setTrunk { s.trunkCount with mismatch := s.trunkCount.mismatch + 1 }
  if inEffect t.sync.mismatchMark t.clock.number then t
  else
    let t := t.raise .cycleMismatch (some .t) none received
    t.setSync { t.sync with mismatchMark := some t.clock.number }

/-- The cycle timer unit takes a trunk SYNC frame: content checks (R87), window, duplicate, acceptance (R88). -/
def State.takeSync (s : State) (capture : Nat) (length : Half) (n : Word) (received : Word) : State :=
  let c := s.cfg.active.params
  let error : Int := (capture : Int) - (c.syncOffset : Int)
  if length ≠ 8 then s.setTrunk { s.trunkCount with format := s.trunkCount.format + 1 }
  else if received.toNat ≠ c.cycleLength then s.mismatchSync received
  else if s.sync.state ≠ .unsynced ∧ c.halfWidth < error.natAbs then
    s.setTrunk { s.trunkCount with outside := s.trunkCount.outside + 1 }
  else if s.sync.accepted then
    s.setTrunk { s.trunkCount with duplicate := s.trunkCount.duplicate + 1 }
  else s.acceptSync error n

/-- SYNC_FRAME: a trunk SYNC frame handed over with its capture is taken (R86 to R94). -/
def execSyncFrame (capture : Nat) (length : Half) (number : Word) (cycleLength : Word) (s : State) :
    Host.Outcome State Fault Refusal :=
  taken s fun s => s.takeSync capture length number cycleLength

end Sys2Proof.Machine
end

