-- ==== Sys2Proof/Machine/Reception.lean ====
section
/-! DEFINITION. The port receivers: start of a frame, header decision, end of a frame, and delivery (R110 to R116). -/

namespace Sys2Proof.Machine

open Sys2Proof

/-- The bytes of a control frame's payload that the buffer holds (R113). -/
def controlPayload : Nat := 128

/-- The record of a receiver that a frame has just reached (R110). -/
def Reception.begin (capture : Option Nat) : Reception :=
  { state := .header, capture := capture, header := none, disposition := none, held := 0, bytes := 0,
    check := crcPreset }

/-- A port's reception record changed. -/
def State.onRx (s : State) (p : Port) (f : Reception → Reception) : State :=
  s.onPort p fun u => { u with rx := f u.rx }

/-- FRAME_START: an idle receiver of a port whose link is UP begins a frame, and on T captures the cycle timer (R110, R117). -/
def execFrameStart (p : Port) (s : State) : Host.Outcome State Fault Refusal :=
  taken s fun s =>
    if (s.ports.get p).link ∧ (s.ports.get p).rx.state = .idle then
      s.onRx p fun _ => Reception.begin (if p = .t then some s.clock.timer else none)
    else s

/-! ### The header decision (R111) -/

/-- A receiver enters a state. -/
def State.enter (s : State) (p : Port) (x : RxState) : State := s.onRx p fun r => { r with state := x }

/-- A receiver enters UNKEPT. -/
def State.enterUnkept (s : State) (p : Port) (d : Disposition) : State :=
  s.onRx p fun r => { r with state := .unkept, disposition := some d }

/-- The trunk receiver enters CONTROL, and the control buffer's record is filled (R113). -/
def State.enterControl (s : State) (h : Header) : State :=
  (s.enter .t .control).setControl
    (some { source := h.source, kind := h.kind, tag := h.tag, capture := s.ports.t.rx.capture, length := h.length,
            payload := [] })

/-- A data-path frame claims its block need (R65, R111): granted, its receiver holds the blocks; failed, it is counted and reported. -/
def State.claim (s : State) (p : Port) (declared : Nat) : State :=
  let need := blockNeed declared
  if need ≤ s.store.free then
    (s.setStore { s.store with free := s.store.free - need }).onRx p fun r => { r with state := .store, held := need }
  else
    ((s.onCount p fun k => { k with rxNoBuffer := k.rxNoBuffer + 1 }).reportExhausted p s.store.free).enter p .dropped

/-- Whether a frame is management addressed to this gate (R107). -/
def State.addressedHere (s : State) (h : Header) : Bool := h.kind = kindMreq && h.destination = s.straps.station

/-- The tests of the header decision in order (R111). -/
def State.decideHeader (s : State) (p : Port) (h : Header) : State :=
  if 1024 < h.length.toNat then (s.onCount p fun k => { k with rxLength := k.rxLength + 1 }).enter p .dropped
  else if (s.ports.get p).admin = .drained then s.enterUnkept p .drained
  else if !knownKind h.kind then s.enterUnkept p .unknownKind
  else if p = .t ∧ (h.kind = kindSync ∨ s.addressedHere h) then s.enterControl h
  else if h.kind = kindSync then s.enterUnkept p .branchSync
  else if s.addressedHere h then s.enterUnkept p .branchMgmt
  else s.claim p h.length.toNat

/-- The tenth byte of a header has arrived: the header is held, ten bytes are counted and checked, and a capture is kept for SYNC alone (R109, R110). -/
def Reception.complete (h : Header) (r : Reception) : Reception :=
  { r with header := some h, capture := if h.kind = kindSync then r.capture else none, bytes := 10,
           check := crcBytes crcPreset (headerBytes h) }

/-- HEADER_DECISION: the tenth byte of the frame in HEADER arrives with this header, and the receiver decides (R111). Its ten byte times have gone by
since the frame's start. -/
def execHeaderDecision (p : Port) (h : Header) (s : State) : Host.Outcome State Fault Refusal :=
  taken s fun s =>
    if (s.ports.get p).rx.state = .header then
      let t := s.advance (10 - (s.ports.get p).rx.bytes)
      (t.onRx p (Reception.complete h)).decideHeader p h
    else s

/-! ### The end of a frame (R114 to R116) -/

/-- The end checks of R115, by what they judge. -/
inductive EndFailure where
  | check | length | kind
  deriving DecidableEq, Repr

/-- The first end check that fails on a frame's header and the bytes after it, or none (R115). `check` is the running check over the header. -/
def endFailure (h : Header) (check : Word) (disposition : Option Disposition) (rest : List Byte) : Option EndFailure :=
  let n := rest.length - 4
  if rest.length < 4 ∨ rest.drop n ≠ be32 (~~~(crcBytes check (rest.take n))) then some .check
  else if n ≠ h.length.toNat then some .length
  else if disposition = some .unknownKind then some .kind
  else none

/-- The counter of a failed end check (R115). -/
def EndFailure.count : EndFailure → PortCounters → PortCounters
  | .check => fun k => { k with rxCheck := k.rxCheck + 1 }
  | .length => fun k => { k with rxLength := k.rxLength + 1 }
  | .kind => fun k => { k with rxKind := k.rxKind + 1 }

/-- RX_FRAMES counts a delivered frame (R116). -/
def State.countFrame (s : State) (p : Port) : State := s.onCount p fun k => { k with rxFrames := k.rxFrames + 1 }

/-- The control frame of a finished reception is handed over (R116): a sync frame to the cycle timer unit, a request to the management unit, a request
of source 0 or 255 to none. DESIGN CHOICE (log entry 16): the frame is counted before it is handed over, so a delivered CLEAR_COUNTERS clears its
own count too (R116, R144). -/
def State.deliverControl (s : State) (c : ControlFrame) : State :=
  if c.kind = kindSync then
    let t := s.countFrame .t
    match c.capture with
    | some v => t.takeSync v c.length (wordAt c.payload 0) (wordAt c.payload 4)
    | none => t
  else if c.source = 0 ∨ c.source = 255 then s.onCount .t fun k => { k with rxMgmtSource := k.rxMgmtSource + 1 }
  else (s.countFrame .t).deliverRequest c.source c.tag c.length c.payload

/-- A frame that passed the end checks is delivered by its route (R116). The receiver is IDLE and the control buffer empty by then. -/
def State.deliver (s : State) (p : Port) (r : Reception) (h : Header) (payload : List Byte) (control : Option ControlFrame) :
    State :=
  match r.state with
  | .store => (s.countFrame p).classify p h payload r.held
  | .control =>
    match control with
    | some c => s.deliverControl { c with payload := payload.take controlPayload }
    | none => s
  | .unkept =>
    match r.disposition with
    | some .branchSync => s.onCount p fun k => { k with rxSyncBranch := k.rxSyncBranch + 1 }
    | some .branchMgmt => s.onCount p fun k => { k with rxMgmtBranch := k.rxMgmtBranch + 1 }
    | _ => s
  | _ => s

/-- The receiver becomes IDLE and, on T, the control buffer is emptied (R113, R114). -/
def State.finishReception (s : State) (p : Port) : State :=
  let t := s.onRx p fun _ => .rest
  if p = .t then t.setControl none else t

/-- The end of a frame whose header has arrived (R114, R115). -/
def State.endFrame (s : State) (p : Port) (r : Reception) (h : Header) (rest : List Byte) : State :=
  let t := s.finishReception p
  if r.state = .dropped then t
  else if r.state = .unkept ∧ r.disposition = some .drained then t.onCount p fun k => { k with rxDrained := k.rxDrained + 1 }
  else
    match endFailure h r.check r.disposition rest with
    | some f => (t.onCount p f.count).returnBlocks r.held
    | none => t.deliver p r h (rest.take (rest.length - 4)) s.control

/-- A frame that ends in HEADER is a runt (R110). -/
def State.endRunt (s : State) (p : Port) : State :=
  (s.finishReception p).onCount p fun k => { k with rxCheck := k.rxCheck + 1 }

/-- The end of a request frame on T at the instant of a warm restart that was taken first: the restart has abandoned its reception, but all its
bytes had arrived, so it is judged against the empty slots (R147, log entry 25). A frame with bytes still to come is not received (R118). -/
def State.endCut (s : State) (p : Port) (rest : List Byte) : State :=
  match s.aux.cutRequest with
  | some x =>
    if p = .t ∧ s.ports.t.link ∧ x.elapsed = s.clock.elapsed ∧ 10 + rest.length ≤ x.bytes ∧
        endFailure x.header x.check none rest = none then
      (s.setAux { s.aux with cutRequest := none }).deliverControl
        { x.frame with payload := (rest.take (rest.length - 4)).take controlPayload }
    else s
  | none => s

/-- FRAME_END: the frame in reception ends (R114). `rest` is what followed its header, or, in HEADER, the fewer than ten bytes that arrived; their byte
times have gone by since the frame's start. -/
def execFrameEnd (p : Port) (rest : List Byte) (s : State) : Host.Outcome State Fault Refusal :=
  taken s fun s =>
    let r := (s.ports.get p).rx
    match r.state, r.header with
    | .idle, _ => s.endCut p rest
    | .header, _ => if rest.length < 10 then (s.advance (rest.length - r.bytes)).endRunt p else s
    | _, some h => (s.advance (10 + rest.length - r.bytes)).endFrame p r h rest
    | _, none => s

end Sys2Proof.Machine
end

