-- ==== Sys2Proof/Machine/Dispatch.lean ====
section
/-! DEFINITION. One arm per command: the meaning of each row of the opcode table. -/

namespace Sys2Proof.Machine

open Sys2Proof

/-- What a command does to everything but the queue of waiting commands. -/
def exec (i : Instr) (s : State) : Host.Outcome State Fault Refusal :=
  match i with
  | .resetAssert => Sys2Proof.Machine.execResetAssert s
  | .resetRelease straps fallbackHigh links => Sys2Proof.Machine.execResetRelease straps fallbackHigh links s
  | .naturalCycleStart => Sys2Proof.Machine.execNaturalCycleStart s
  | .lifetimeExpiry p => Sys2Proof.Machine.execLifetimeExpiry p s
  | .swap => Sys2Proof.Machine.execSwap s
  | .windowOpen p start => Sys2Proof.Machine.execWindowOpen p start s
  | .windowClose p stop => Sys2Proof.Machine.execWindowClose p stop s
  | .missedSyncEvaluation => Sys2Proof.Machine.execMissedSyncEvaluation s
  | .frameStart p => Sys2Proof.Machine.execFrameStart p s
  | .headerDecision p h => Sys2Proof.Machine.execHeaderDecision p h s
  | .frameEnd p rest => Sys2Proof.Machine.execFrameEnd p rest s
  | .syncFrame capture length number cycleLength => Sys2Proof.Machine.execSyncFrame capture length number cycleLength s
  | .dataTxEnd p => Sys2Proof.Machine.execDataTxEnd p s
  | .ownTxEnd => Sys2Proof.Machine.execOwnTxEnd s
  | .syncTxEnd p => Sys2Proof.Machine.execSyncTxEnd p s
  | .choice p => Sys2Proof.Machine.execChoice p s
  | .linkLoss p => Sys2Proof.Machine.execLinkLoss p s
  | .linkReturn p => Sys2Proof.Machine.execLinkReturn p s
  | .drainCompletion p => Sys2Proof.Machine.execDrainCompletion p s
  | .leaseExpiry slot => Sys2Proof.Machine.execLeaseExpiry slot s
  | .retransmitTimerExpiry => Sys2Proof.Machine.execRetransmitTimerExpiry s
  | .deferredRetransmission => Sys2Proof.Machine.execDeferredRetransmission s
  | .reportBuild => Sys2Proof.Machine.execReportBuild s
  | .overflowQueued => Sys2Proof.Machine.execOverflowQueued s
  | .warmRestart => Sys2Proof.Machine.execWarmRestart s
  | .openSession r mode lease => Sys2Proof.Machine.execOpen r mode lease s
  | .closeSession r => Sys2Proof.Machine.execClose r s
  | .renew r => Sys2Proof.Machine.execRenew r s
  | .readIdentity r => Sys2Proof.Machine.execReadIdentity r s
  | .readStream r copy stream => Sys2Proof.Machine.execReadStream r copy stream s
  | .readWindow r copy port index => Sys2Proof.Machine.execReadWindow r copy port index s
  | .readParams r copy => Sys2Proof.Machine.execReadParams r copy s
  | .readStreamCounters r stream => Sys2Proof.Machine.execReadStreamCounters r stream s
  | .readPort r port => Sys2Proof.Machine.execReadPort r port s
  | .readSync r => Sys2Proof.Machine.execReadSync r s
  | .readSessions r => Sys2Proof.Machine.execReadSessions r s
  | .readEvents r => Sys2Proof.Machine.execReadEvents r s
  | .readCommit r => Sys2Proof.Machine.execReadCommit r s
  | .ack r n => Sys2Proof.Machine.execAck r n s
  | .stageStreamPut r b => Sys2Proof.Machine.execStageStreamPut r b s
  | .stageStreamDelete r stream => Sys2Proof.Machine.execStageStreamDelete r stream s
  | .stageWindowPut r b => Sys2Proof.Machine.execStageWindowPut r b s
  | .stageWindowDelete r port start => Sys2Proof.Machine.execStageWindowDelete r port start s
  | .stageWindowClearPort r port => Sys2Proof.Machine.execStageWindowClearPort r port s
  | .stageParams r b => Sys2Proof.Machine.execStageParams r b s
  | .commit r target => Sys2Proof.Machine.execCommit r target s
  | .abort r option expected => Sys2Proof.Machine.execAbort r option expected s
  | .drain r port option => Sys2Proof.Machine.execDrain r port option s
  | .resume r port => Sys2Proof.Machine.execResume r port s
  | .clearCounters r => Sys2Proof.Machine.execClearCounters r s
  | .restart r => Sys2Proof.Machine.execRestart r s
  | .unknownRequestCode r code => Sys2Proof.Machine.execUnknownRequestCode r code s

end Sys2Proof.Machine
end

