-- ==== Sys2Proof/WellFormed.lean ====
section
/-! DEFINITION. Which commands can be sent: the conditions the manual puts on their operands. Every meaning is total, so a command
that this check refuses is still given an outcome. -/

namespace Sys2Proof

/-- Whether a station can send a request: the receiver hands over none of source 0 or 255 (R108). -/
def RequestHead.sourceOk (h : RequestHead) : Bool := h.source ≠ 0 && h.source ≠ 255

/-- A request whose code has been read carries a code and flags (R134). -/
def RequestHead.coded (h : RequestHead) : Bool := h.sourceOk && 2 ≤ h.length.toNat

/-- A request whose selector, operation or presence mask has been read carries it (R168). -/
def RequestHead.selected (h : RequestHead) : Bool := h.sourceOk && 3 ≤ h.length.toNat

/-- The request codes the gate knows (11.2). -/
def knownCodes : List Byte := [0x01, 0x02, 0x03, 0x04, 0x05, 0x10, 0x11, 0x12, 0x13, 0x14, 0x20, 0x21, 0x22, 0x23]

/-- The request codes whose body length depends on its first byte (R168). -/
def selectorCodes : List Byte := [0x04, 0x10, 0x11, 0x12]

/-- A request that stands for no other row: of an unknown code, too short for code and flags, or without the byte its code's length
depends on. -/
def unknownOk (h : RequestHead) (code : Byte) : Bool :=
  h.sourceOk && (h.length.toNat < 2 || !knownCodes.contains code || (h.length.toNat = 2 && selectorCodes.contains code))

/-- The largest start and the least and largest end of a window (R2, R48). -/
def windowStartOk (start : Nat) : Bool := start + 32 ≤ 12499992

/-- The ends a window can have. -/
def windowStopOk (stop : Nat) : Bool := 32 ≤ stop && stop ≤ 12499992

/-- A capture is a value of the cycle timer, which stays below the end of the longest cycle (R83, R84, R89). -/
def captureOk (capture : Nat) : Bool := capture < 12500008

/-- The check of a command. -/
def Instr.wellFormed : Instr → Bool
  | .resetAssert => true
  | .resetRelease _ _ _ => true
  | .naturalCycleStart => true
  | .lifetimeExpiry _ => true
  | .swap => true
  | .windowOpen _ start => windowStartOk start
  | .windowClose _ stop => windowStopOk stop
  | .missedSyncEvaluation => true
  | .frameStart _ => true
  | .headerDecision _ _ => true
  | .frameEnd _ _ => true
  | .syncFrame capture _ _ _ => captureOk capture
  | .dataTxEnd _ => true
  | .ownTxEnd => true
  | .syncTxEnd p => p ≠ .t
  | .choice _ => true
  | .linkLoss _ => true
  | .linkReturn _ => true
  | .drainCompletion p => p ≠ .t
  | .leaseExpiry _ => true
  | .retransmitTimerExpiry => true
  | .deferredRetransmission => true
  | .reportBuild => true
  | .overflowQueued => true
  | .warmRestart => true
  | .openSession r _ _ => r.coded
  | .closeSession r => r.coded
  | .renew r => r.coded
  | .readIdentity r => r.selected
  | .readStream r _ _ => r.selected
  | .readWindow r _ _ _ => r.selected
  | .readParams r _ => r.selected
  | .readStreamCounters r _ => r.selected
  | .readPort r _ => r.selected
  | .readSync r => r.selected
  | .readSessions r => r.selected
  | .readEvents r => r.selected
  | .readCommit r => r.selected
  | .ack r _ => r.coded
  | .stageStreamPut r _ => r.selected
  | .stageStreamDelete r _ => r.selected
  | .stageWindowPut r _ => r.selected
  | .stageWindowDelete r _ _ => r.selected
  | .stageWindowClearPort r _ => r.selected
  | .stageParams r _ => r.selected
  | .commit r _ => r.coded
  | .abort r _ _ => r.coded
  | .drain r _ _ => r.coded
  | .resume r _ => r.coded
  | .clearCounters r => r.coded
  | .restart r => r.coded
  | .unknownRequestCode r code => unknownOk r code

end Sys2Proof
end

