-- ==== Sys2Proof/Safety.lean ====
section
/-! DEFINITION. What counts as a safe step and a safe run, and the standing conditions the manual puts on the gate's state. -/

namespace Sys2Proof.Machine

open Sys2Proof

/-! ### Steps and runs -/

/-- A step is safe when it answers a next state: no fault stopped the gate, and no command was refused. -/
def SafeStep (s : State) : Prop := ∃ t, step s = .next t

/-- A state is reached from another by steps. -/
inductive Reaches : State → State → Prop where
  | refl (s : State) : Reaches s s
  | step {s t u : State} : Reaches s t → Machine.step t = .next u → Reaches s u

/-- A condition that every step keeps, from every state that meets it. -/
def KeptByStep (inv : State → Prop) : Prop := ∀ s t : State, inv s → step s = .next t → inv t

/-! ### Standing conditions -/

/-- LOCK is high exactly while the gate enforces and is out of reset (R99). -/
def State.LockInv (s : State) : Prop := s.lock = (s.enforcing && !s.resetHeld)

/-- The counts and the accepted mark that each sync state goes with (R85, R91). -/
def SyncRecord.Inv (r : SyncRecord) : Prop :=
  match r.state with
  | .unsynced => r.good = 0 ∧ r.missed = 0 ∧ r.accepted = false
  | .acquiring => 1 ≤ r.good ∧ r.good ≤ 2 ∧ r.missed = 0
  | .locked => r.good = 3 ∧ r.missed = 0
  | .holdover => r.good = 3 ∧ 1 ≤ r.missed

/-- The sync record meets its condition (R85). -/
def State.SyncInv (s : State) : Prop := s.sync.Inv

/-- The field ranges of a session record (R133). -/
def Session.ok (x : Session) : Prop :=
  1 ≤ x.station.toNat ∧ x.station.toNat ≤ 254 ∧ 100 ≤ x.lease ∧ x.lease ≤ 60000 ∧ x.remaining ≤ x.lease

/-- The limits on sessions (R133): records in range, no station twice, at most one EDIT. -/
def State.SessionInv (s : State) : Prop :=
  (∀ i x, s.mgmt.slots.get i = some x → x.ok) ∧
  (∀ i j x y, s.mgmt.slots.get i = some x → s.mgmt.slots.get j = some y → x.station = y.station → i = j) ∧
  (∀ i j x y, s.mgmt.slots.get i = some x → s.mgmt.slots.get j = some y → x.mode = .edit → y.mode = .edit → i = j)

/-- While no EDIT session exists and no commit is armed, the staged copy equals the active one and the edited mark is clear (R43). -/
def State.StagedInv (s : State) : Prop :=
  (∀ i x, s.mgmt.slots.get i = some x → x.mode ≠ .edit) → s.cfg.armed = none →
    s.cfg.staged = s.cfg.active ∧ s.cfg.edited = false

/-- The ranges of a stream entry (R22). -/
def StreamEntry.ok (e : StreamEntry) : Prop :=
  e.stream ≠ 0 ∧ e.egress ≠ PerPort.fill false ∧ e.egress.get e.ingress = false ∧ e.maxPayload ≤ 1024 ∧
    e.budget ≤ 255 ∧ 1 ≤ e.lifetime ∧ e.lifetime ≤ 16

/-- The ranges of a window, with the bound that staging puts on its end (R1, R48). -/
def Window.ok (w : Window) : Prop :=
  32 ≤ w.length ∧ w.classes ≠ Quad.fill false ∧ (w.port ≠ .t → 32 ≤ w.start) ∧ w.stop ≤ latestStop

/-- The ranges of the parameters (R42). -/
def Params.ok (p : Params) : Prop :=
  1250 ≤ p.cycleLength ∧ p.cycleLength ≤ 12500000 ∧ p.syncOffset ≤ 12499999 ∧ 16 ≤ p.halfWidth ∧ p.halfWidth ≤ 4096 ∧
    1 ≤ p.lockTolerance ∧ p.lockTolerance ≤ 64 ∧ 2 ≤ p.stepThreshold ∧ p.stepThreshold ≤ 4095 ∧
    1 ≤ p.holdoverLimit ∧ p.holdoverLimit ≤ 255 ∧ 1 ≤ p.retransmitTime ∧ p.retransmitTime ≤ 255

/-- What staging keeps true of a configuration at all times (R2, R22, R23, R42): every value in range, no stream and no key twice, no two
windows of a port overlapping, and the capacities. -/
def Configuration.Ok (c : Configuration) : Prop :=
  (∀ e ∈ c.streams, e.ok) ∧ c.streams.Pairwise (fun a b => a.stream.toNat < b.stream.toNat) ∧
    c.streams.length ≤ Config.tableCapacity ∧
  (∀ w ∈ c.windows, w.ok) ∧ c.windows.Pairwise (fun a b => a.before b = true) ∧
    (∀ v ∈ c.windows, ∀ w ∈ c.windows, v.port = w.port → v.sameKey w = false → v.overlaps w = false) ∧
    c.windows.length ≤ Config.windowCapacity ∧
  c.params.ok

/-- The conditions on the two copies (R2, R43, R53): both within the limits of staging; an armed copy, and an active one of generation 1 or
later, pass every check of a commit; generation 0 is the power-on configuration. -/
def State.ConfigInv (s : State) : Prop :=
  s.cfg.active.Ok ∧ s.cfg.staged.Ok ∧ (s.cfg.armed ≠ none → validate s.cfg.staged = none) ∧
    (s.cfg.generation ≠ 0 → validate s.cfg.active = none) ∧
    (s.cfg.generation = 0 → s.cfg.active = .powerOn s.straps.policy)

/-- The blocks the five receivers hold. -/
def State.heldBlocks (s : State) : Nat := (Port.all.map fun p => (s.ports.get p).rx.held).sum

/-- The blocks of stored frames. -/
def State.storedBlocks (s : State) : Nat := (s.store.frames.map (·.blocks)).sum

/-- Every block is free, held by a reception in STORE, or part of a stored frame, and there are 512 (R64). -/
def State.PoolInv (s : State) : Prop :=
  s.store.free + s.heldBlocks + s.storedBlocks = Config.poolBlocks ∧
    ∀ p, (s.ports.get p).rx.state ≠ .store → (s.ports.get p).rx.held = 0

/-- The capacities of the class queues, the own-frame buffer and the event queue, and the class of what a class queue holds (R69, R77, R151). -/
def State.QueueInv (s : State) : Prop :=
  (∀ p c, ((s.ports.get p).queues.get c).length ≤ Config.classQueueCapacity) ∧
    (∀ p c, ∀ d ∈ (s.ports.get p).queues.get c, d.cls = c) ∧ s.slotsTaken ≤ Config.ownSlots ∧
    ordinaryCount s.events.queue ≤ Config.ordinaryNotices ∧
    s.events.queue.length ≤ ordinaryCount s.events.queue + 1

/-- The SENT notices are the oldest, and at most eight (R151). -/
def SentFirst (q : List QueuedNotice) : Prop :=
  ∃ n, n ≤ Config.reportNotices ∧ (∀ x ∈ q.take n, x.sent = true) ∧ ∀ x ∈ q.drop n, x.sent = false

/-- The event unit's condition (R151, R156): SENT notices stand first; a report is outstanding exactly while SENT notices exist, and then a sink
exists and it has been sent one to four times, or one to three where a retransmission is due; the timer runs exactly while a report is outstanding and no retransmission is due. -/
def EventUnit.Inv (e : EventUnit) : Prop :=
  SentFirst e.queue ∧ (e.report.isSome = e.queue.any (·.sent)) ∧ (e.report.isSome → e.sink.isSome) ∧
    (∀ r, e.report = some r →
      1 ≤ r.sends ∧ r.sends ≤ 4 ∧ (r.due = true → r.sends ≤ 3) ∧ e.timer.isSome = !r.due) ∧
    (e.report = none → e.timer = none)

/-- No queued notice is SENT. -/
def EventUnit.NoticesUnsent (e : EventUnit) : Prop := ∀ x ∈ e.queue, x.sent = false

/-- The event unit meets its condition (R151). -/
def State.NoticeInv (s : State) : Prop := s.events.Inv

/-- The descriptor a transmitter sends, if it sends a data frame (R69). -/
def Transmitter.inFlight : Transmitter → List Descriptor
  | .busy (.data d) _ _ => [d]
  | _ => []

/-- Every descriptor of a port, queued and in flight. -/
def PortUnit.descriptors (u : PortUnit) : List Descriptor := u.queues.toList.flatten ++ u.tx.inFlight

/-- Every descriptor of the gate. -/
def State.descriptors (s : State) : List Descriptor := Port.all.flatMap fun p => (s.ports.get p).descriptors

/-- The stored frames have different references, every frame's count is the number of its descriptors, which is at least 1, and every descriptor refers to
a stored frame (R67). -/
def State.RefInv (s : State) : Prop :=
  (s.store.frames.map (·.ref)).Nodup ∧
  (∀ f ∈ s.store.frames, 1 ≤ f.count ∧ f.count = (s.descriptors.filter fun d => d.frame = f.ref).length) ∧
  ∀ d ∈ s.descriptors, ∃ f ∈ s.store.frames, f.ref = d.frame

/-- The drain record is present exactly while a port is DRAINING, T is OPEN, and out of reset a draining port still has something to send (R121,
R126). -/
def State.DrainInv (s : State) : Prop :=
  s.ports.t.admin = .opened ∧
    ∀ p, ((s.ports.get p).admin = .draining ↔ (s.ports.get p).drain.isSome) ∧
      (s.resetHeld = false → (s.ports.get p).admin = .draining →
        ¬((s.ports.get p).tx.isIdle = true ∧ (s.ports.get p).queuesEmpty = true))

/-- A port whose link is DOWN receives and sends nothing and queues no data frame (R117, R122). -/
def State.LinkInv (s : State) : Prop :=
  ∀ p, (s.ports.get p).link = false →
    (s.ports.get p).rx.state = .idle ∧ (s.ports.get p).tx.isIdle = true ∧ (s.ports.get p).queuesEmpty = true

/-- The run-time records are those of the active entries, and no budget remaining exceeds its budget (R24, R25). -/
def State.RecordInv (s : State) : Prop :=
  s.classifier.records.map (·.stream) = s.cfg.active.streams.map (·.stream) ∧
    ∀ r ∈ s.classifier.records, ∀ e, streamEntry s.cfg.active r.stream = some e → r.budgetRemaining ≤ e.budget

/-! ### Requests as commands -/

/-- A request row other than OPEN and the unknown codes: its head, its code, the length of its body (R168, 11.2), and whether it requires
EDIT (R142). -/
structure RequestRow where
  head : RequestHead
  code : Byte
  bodyLength : Nat
  edit : Bool
  deriving DecidableEq, Repr

/-- The request row a command is, if it is one (11.2). -/
def requestRow : Instr → Option RequestRow
  | .closeSession r => some ⟨r, 0x02, 0, false⟩
  | .renew r => some ⟨r, 0x03, 0, false⟩
  | .readIdentity r => some ⟨r, 0x04, 1, false⟩
  | .readStream r _ _ => some ⟨r, 0x04, 4, false⟩
  | .readWindow r _ _ _ => some ⟨r, 0x04, 4, false⟩
  | .readParams r _ => some ⟨r, 0x04, 2, false⟩
  | .readStreamCounters r _ => some ⟨r, 0x04, 3, false⟩
  | .readPort r _ => some ⟨r, 0x04, 2, false⟩
  | .readSync r => some ⟨r, 0x04, 1, false⟩
  | .readSessions r => some ⟨r, 0x04, 1, false⟩
  | .readEvents r => some ⟨r, 0x04, 1, false⟩
  | .readCommit r => some ⟨r, 0x04, 1, false⟩
  | .ack r _ => some ⟨r, 0x05, 2, false⟩
  | .stageStreamPut r _ => some ⟨r, 0x10, 11, true⟩
  | .stageStreamDelete r _ => some ⟨r, 0x10, 3, true⟩
  | .stageWindowPut r _ => some ⟨r, 0x11, 11, true⟩
  | .stageWindowDelete r _ _ => some ⟨r, 0x11, 6, true⟩
  | .stageWindowClearPort r _ => some ⟨r, 0x11, 2, true⟩
  | .stageParams r b => some ⟨r, 0x12, paramsBodySize b, true⟩
  | .commit r _ => some ⟨r, 0x13, 4, true⟩
  | .abort r _ _ => some ⟨r, 0x14, 3, true⟩
  | .drain r _ _ => some ⟨r, 0x20, 2, true⟩
  | .resume r _ => some ⟨r, 0x21, 1, true⟩
  | .clearCounters r => some ⟨r, 0x22, 0, true⟩
  | .restart r => some ⟨r, 0x23, 0, true⟩
  | .resetAssert | .resetRelease _ _ _ | .naturalCycleStart | .lifetimeExpiry _ | .swap | .windowOpen _ _ | .windowClose _ _
  | .missedSyncEvaluation | .frameStart _ | .headerDecision _ _ | .frameEnd _ _ | .syncFrame _ _ _ _ | .dataTxEnd _
  | .ownTxEnd | .syncTxEnd _ | .choice _ | .linkLoss _ | .linkReturn _ | .drainCompletion _ | .leaseExpiry _
  | .retransmitTimerExpiry | .deferredRetransmission | .reportBuild | .overflowQueued | .warmRestart | .openSession _ _ _
  | .unknownRequestCode _ _ => none

/-- A request of this body length stands in turn: the gate is out of reset, the source can hold a session and holds this one, the tag is
the next in sequence, and the body has its length (R134, R140). -/
structure State.InTurn (s : State) (r : RequestHead) (bodyLength : Nat) (x : Session) : Prop where
  running : s.resetHeld = false
  source : validSource r = true
  length : r.length.toNat = bodyLength + 2
  session : sessionOf s.mgmt.slots r.source = some x
  tag : r.tag = x.lastSequence + 1

/-- A request that requires EDIT stands in turn in an EDIT session (R142). -/
structure State.EditTurn (s : State) (r : RequestHead) (bodyLength : Nat) (x : Session) : Prop extends
    s.InTurn r bodyLength x where
  edit : x.mode = .edit

/-- The next state of a request that is carried out and answered: `u` is what its unit leaves, the response is recorded and joins the own
queue, and the steps that follow are taken (R134, R141). -/
def answered (u : State) (r : RequestHead) (code : Byte) (status : Status) (body : List Byte) :
    Host.Outcome State Fault Refusal :=
  .next (settle (u.answer r code (reply status body) true))

end Sys2Proof.Machine
end

