-- ==== Sys2Proof/Certificates/Slice0/Obligations.lean ====
section
/-! DEFINITION. The statements for the provers. A next state written `settle u` is what the command's own effect leaves (`u`), with the
steps that follow from it taken (log entry 2); `SettlingKeeps` says what those steps leave alone. -/

open Sys2Proof Sys2Proof.Machine

/-! ### The queue, reset, and what follows a command -/

/-- The model's step takes the command at the front of the queue (a block's own statement; log entry 8). -/
def Obligations.StepRunsFrontCommand : Prop :=
  ∀ (s : State) (c : Instr) (cs : List Instr), s.pending = c :: cs → step s = exec c { s with pending := cs }

/-- The model's choice (log entry 1) of what a step does while no command waits: held in reset it does nothing (R164); events that have
come due become the waiting commands; else the timer advances by one byte time (R83), and every 12,500th since the release (the phase is log
entry 20) is a millisecond tick, at which every lease and the running retransmit timer fall by one (R135, R156). In that byte time each transmission
has one less left of its occupancy (R8), and each receiver between start and end of a frame has one byte more (R105, R109). -/
def Obligations.EmptyQueueStepLetsAByteTimePass : Prop :=
  ∀ s : State, s.pending = [] →
    (s.resetHeld = true → step s = .next s) ∧
    (s.resetHeld = false → s.dueEvents ≠ [] → step s = .next { s with pending := s.dueEvents }) ∧
    (s.resetHeld = false → s.dueEvents = [] →
      ∃ t, step s = .next t ∧ t.clock.timer = s.clock.timer + 1 ∧ t.clock.number = s.clock.number ∧
        t.clock.cycleEnd = s.clock.cycleEnd ∧ t.clock.elapsed = s.clock.elapsed + 1 ∧
        (let tick := if (s.clock.elapsed + 1) % 12500 = 0 then 1 else 0
         t.events.timer = s.events.timer.map (· - tick) ∧
         ∀ i, t.mgmt.slots.get i = (s.mgmt.slots.get i).map fun x => { x with remaining := x.remaining - tick }) ∧
        t.pending = t.dueEvents ++ t.reachedEvents ∧ t.cfg = s.cfg ∧ t.sync = s.sync ∧ t.store = s.store ∧ t.own = s.own ∧
        t.lock = s.lock ∧ t.classifier = s.classifier ∧ t.events.queue = s.events.queue ∧
        ∀ p, (t.ports.get p).queues = (s.ports.get p).queues ∧ (t.ports.get p).count = (s.ports.get p).count ∧
          (t.ports.get p).link = (s.ports.get p).link ∧ (t.ports.get p).admin = (s.ports.get p).admin ∧
          (∀ f occ left, (s.ports.get p).tx = .busy f occ left → (t.ports.get p).tx = .busy f occ (left - 1)) ∧
          ((s.ports.get p).tx = .idle → (t.ports.get p).tx = .idle) ∧
          (t.ports.get p).rx =
            if (s.ports.get p).rx.state = .idle then (s.ports.get p).rx
            else { (s.ports.get p).rx with bytes := (s.ports.get p).rx.bytes + 1 })

/-- What the steps that follow a command leave alone (log entry 2): clocks, sync, configuration, sessions, straps, LOCK, everything of
reception, links, and every counter but those of late descriptors; and what they can do to a port: complete its drain, start a
frame on an idle transmitter, take descriptors off its queues in order.
What they do: no choice stays asked for, and each one asked for is made, so that a transmitter still idle has no candidate left that the mode lets
start (R11, R12, R17, R18), while a branch not asked keeps its queues and transmitter; no OVERFLOW notice, report or retransmission whose
conditions hold is left to be queued, built or made (R153, R155, R156). That a slot which the command freed at the end of an own frame is left
free, so that a response of the same instant may take it before a report or retransmission does, or after (R79, R159), is how the model gives both
orders (log entry 27): settling then builds and makes none, and the offer ends with it. -/
def Obligations.SettlingKeeps : Prop :=
  (∀ s : State,
    let t := settle s
    (∀ p, t.aux.choiceDue.get p = false) ∧
    (∀ p,
      let window (ok : Window → Prop) : Prop := ∃ w, s.openWindow p = some w ∧ ok w
      let room (n : Nat) : Prop := s.mode ≠ .enforcing ∨ window fun w => s.clock.timer + n + 24 ≤ w.stop
      (s.aux.choiceDue.get p = true → (s.ports.get p).link = true → (t.ports.get p).tx = .idle →
        (∀ c d behind, s.mode = .pass ∨ s.mode = .enforcing ∧ (window fun w => w.classes.get c = true) →
          (t.ports.get p).queues.get c = d :: behind → d.live s.clock.number = true ∧ ¬room d.length) ∧
        (p = .t → ∀ o rest, t.own = o :: rest →
          s.mode ≠ .enforcing ∨ (window fun w => w.classes.get 0 = true) → ¬room o.payload.length)) ∧
      (s.aux.choiceDue.get p = false → p ≠ .t →
        (t.ports.get p).tx = (s.ports.get p).tx ∧ (t.ports.get p).queues = (s.ports.get p).queues)) ∧
    (t.events.overflowSet = [] ∨ 31 ≤ (t.events.queue.filter fun x => x.notice.kind ≠ .overflow).length ∨
      ∃ x ∈ t.events.queue, x.notice.kind = .overflow) ∧
    (s.aux.slotFreed = false →
      (t.events.sink = none ∨ t.events.report ≠ none ∨ (∀ x ∈ t.events.queue, x.sent = true) ∨ 8 ≤ t.slotsTaken) ∧
      ∀ r, t.events.report = some r → r.due = true → t.events.sink = none ∨ 8 ≤ t.slotsTaken) ∧
    (s.aux.slotFreed = true →
      t.events.report = s.events.report ∧ t.events.timer = s.events.timer ∧ t.slotsTaken = s.slotsTaken) ∧
    t.aux.slotFreed = false) ∧
  ∀ s : State,
    (settle s).resetHeld = s.resetHeld ∧ (settle s).lock = s.lock ∧ (settle s).clock = s.clock ∧
    (settle s).sync = s.sync ∧ (settle s).trunkCount = s.trunkCount ∧ (settle s).cfg = s.cfg ∧
    (settle s).straps = s.straps ∧ (settle s).mgmt = s.mgmt ∧ (settle s).control = s.control ∧
    (settle s).events.sink = s.events.sink ∧ (settle s).pending = s.pending ∧
    ∀ p, ((settle s).ports.get p).link = (s.ports.get p).link ∧ ((settle s).ports.get p).rx = (s.ports.get p).rx ∧
      { ((settle s).ports.get p).count with late := (s.ports.get p).count.late } = (s.ports.get p).count ∧
      (((settle s).ports.get p).admin = (s.ports.get p).admin ∨
        (s.ports.get p).admin = .draining ∧ ((settle s).ports.get p).admin = .drained) ∧
      ((s.ports.get p).tx.isIdle = false → ((settle s).ports.get p).tx = (s.ports.get p).tx) ∧
      ∀ c, ∃ gone, (s.ports.get p).queues.get c = gone ++ ((settle s).ports.get p).queues.get c

/-- R164: at RESET_ASSERT frames in reception and in flight are lost and LOCK is low; while RESET_N is low no other command but the
release has an effect and no time is counted.
R162 to R164 with the power-on values of R42, R43, R85, R121, R133 and R151: what RESET_RELEASE leaves, from any state. -/
def Obligations.ResetHoldsAndReleases : Prop :=
  (∀ s : State,
    (∃ t, exec .resetAssert s = .next t ∧ t.resetHeld = true ∧ t.lock = false ∧
      ∀ p, (t.ports.get p).rx = .rest ∧ (t.ports.get p).tx = .idle) ∧
    (s.resetHeld = true →
      (∀ c, c ≠ .resetAssert → (∀ straps high links, c ≠ .resetRelease straps high links) → exec c s = .next s) ∧
      (s.pending = [] → step s = .next s))) ∧
  (∀ (s : State) (straps : Byte) (high : Bool) (links : PerPort Bool),
    ∃ t, exec (.resetRelease straps high links) s = .next t ∧
      t.resetHeld = false ∧ t.lock = false ∧
      t.straps.station = (if straps = 0 ∨ straps = 255 then 254 else straps) ∧
      t.straps.policy = (if high then .block else .pass) ∧
      t.clock.timer = 0 ∧ t.clock.number = 0 ∧ t.clock.cycleEnd = 12500 ∧
      t.sync.state = .unsynced ∧ t.sync.good = 0 ∧ t.sync.missed = 0 ∧ t.sync.accepted = false ∧
      t.sync.lastError = none ∧ t.sync.mismatchMark = none ∧
      t.cfg.generation = 0 ∧ t.cfg.staged = t.cfg.active ∧ t.cfg.armed = none ∧ t.cfg.edited = false ∧
      t.cfg.active.streams = [] ∧ t.cfg.active.windows = [] ∧
      t.cfg.active.params = ⟨12500, 512, 256, 4, 64, 8, t.straps.policy, 20⟩ ∧
      t.classifier.records = [] ∧ t.store.free = 512 ∧ t.store.frames = [] ∧ t.own = [] ∧ t.control = none ∧
      (∀ i, t.mgmt.slots.get i = none) ∧ t.mgmt.restartPending = false ∧
      t.events = ⟨[], 0, [], 0, none, none, none, none⟩ ∧
      ∀ p, (t.ports.get p).link = links.get p ∧ (t.ports.get p).admin = .opened ∧ (t.ports.get p).drain = none ∧
        (t.ports.get p).rx.state = .idle ∧ (t.ports.get p).tx = .idle ∧ (∀ c, (t.ports.get p).queues.get c = []) ∧
        (t.ports.get p).count = .zero ∧ t.classifier.unknownMarks.get p = none)

/-- Every standing condition of `Safety` holds right after any release of RESET_N, so at `State.reset` (log entry 3) too. -/
def Obligations.PowerOnMeetsEveryInvariant : Prop :=
  ∀ (straps : Byte) (high : Bool) (links : PerPort Bool) (waiting : List Instr) (s : State),
    s = State.powerOn straps high links waiting →
    s.LockInv ∧ s.SyncInv ∧ s.SessionInv ∧ s.StagedInv ∧ s.ConfigInv ∧ s.PoolInv ∧ s.QueueInv ∧ s.NoticeInv ∧ s.RefInv ∧
      s.DrainInv ∧ s.LinkInv ∧ s.RecordInv

/-! ### The cycle -/

/-- R84, R85, R54: at a natural cycle start the timer becomes 0, the number advances modulo 2^32, the end is the L of the configuration
active for the cycle that begins, the marks of the sync record are cleared, and a due swap, and only a due swap, is made. -/
def Obligations.NaturalCycleStartTurnsTheCycle : Prop :=
  ∀ (s : State), s.resetHeld = false →
    ∃ t, exec .naturalCycleStart s = .next t ∧ t.clock.timer = 0 ∧ t.clock.number = s.clock.number + 1 ∧
      t.clock.cycleEnd = t.cfg.active.params.cycleLength ∧
      t.sync = { s.sync with accepted := false, mismatchMark := none } ∧ t.trunkCount = s.trunkCount ∧
      t.straps = s.straps ∧ t.mgmt.restartPending = s.mgmt.restartPending ∧ t.lock = t.enforcing ∧
      t.cfg =
        if (∃ target, s.cfg.armed = some target ∧ ¬earlier (s.clock.number + 1) target = true) then
          { s.cfg with
            active := s.cfg.staged, generation := if s.cfg.generation = 65535 then 1 else s.cfg.generation + 1,
            armed := none, edited := false }
        else s.cfg

/-- R25, R27: after a natural cycle start the records are those of the entries then active, each with its budget refilled and nothing policed
this cycle.
R26, R150: the report marks that do not hold the new cycle number are cleared there, one that holds it stays, and the pool mark is cleared.
R27: a natural cycle start that makes a due swap keeps the six counters of a stream that both tables hold, starts those of a new stream at 0 with
its budget and no marks, and drops the records of the others; one that makes none keeps every stream's six counters (`u` is what it leaves before
the choices of its instant, which may count late descriptors). A swap leaves the per-port marks. -/
def Obligations.CycleStartKeepsTheRecordsInStep : Prop :=
  (∀ (s : State), s.resetHeld = false → s.ConfigInv → s.RecordInv →
    ∃ u t, exec .naturalCycleStart s = .next t ∧ t = settle u ∧
    u.classifier.records.map (·.stream) = u.cfg.active.streams.map (·.stream) ∧
    (∀ r ∈ u.classifier.records,
      if (∃ x ∈ s.cfg.active.streams, x.stream = r.stream) then
        ∃ old ∈ s.classifier.records, old.stream = r.stream ∧ old.received = r.received ∧ old.forwarded = r.forwarded ∧
          old.policed = r.policed ∧ old.oversize = r.oversize ∧ old.noQueue = r.noQueue ∧ old.late = r.late
      else r = ⟨r.stream, r.budgetRemaining, 0, 0, 0, 0, 0, 0, 0, none, none, none⟩) ∧
    t.classifier.records.map (fun r => (r.stream, r.budgetRemaining, r.policedNow)) =
      t.cfg.active.streams.map (fun e => (e.stream, e.budget, 0)) ∧
    (let n := s.clock.number + 1
     let kept (m : Option Word) : Option Word := if m = some n then some n else none
     t.events.poolMark = none ∧
     (∀ p, t.classifier.unknownMarks.get p = kept (s.classifier.unknownMarks.get p)) ∧
     ∀ r ∈ t.classifier.records, (r.lateMark = none ∨ r.lateMark = some n) ∧
       ∀ old, streamRecord s.classifier.records r.stream = some old →
         r.policedMark = kept old.policedMark ∧ r.oversizeMark = kept old.oversizeMark ∧
           (old.lateMark = some n → r.lateMark = some n))) ∧
  (∀ s : State, s.ConfigInv → s.RecordInv →
    s.takeSwap.classifier.records.map (·.stream) = s.cfg.staged.streams.map (·.stream) ∧
    s.takeSwap.classifier.unknownMarks = s.classifier.unknownMarks ∧
    ∀ r ∈ s.takeSwap.classifier.records, ∀ e ∈ s.cfg.staged.streams, e.stream = r.stream →
      if (∃ x ∈ s.cfg.active.streams, x.stream = r.stream) then
        ∃ old ∈ s.classifier.records, old.stream = r.stream ∧ old.received = r.received ∧ old.forwarded = r.forwarded ∧
          old.policed = r.policed ∧ old.oversize = r.oversize ∧ old.noQueue = r.noQueue ∧ old.late = r.late
      else r = ⟨e.stream, e.budget, 0, 0, 0, 0, 0, 0, 0, none, none, none⟩)

/-- R101, R102: at a natural cycle start, while the gate enforces, every branch that is UP, OPEN and IDLE sends a branch sync frame with S, the number
and the L of the cycle that begins; no other transmitter starts one; a branch that was BUSY skips it and counts the skip. -/
def Obligations.BranchSyncFramesOnlyWhileEnforcing : Prop :=
  ∀ (s t : State) (p : Port), s.resetHeld = false → exec .naturalCycleStart s = .next t →
    (t.lock = true → p ≠ .t → (s.ports.get p).link = true → (s.ports.get p).admin = .opened → (s.ports.get p).tx = .idle →
      (t.ports.get p).tx = .busy (.sync s.straps.station (s.clock.number + 1) t.cfg.active.params.cycleLength) 32 32) ∧
    (∀ source number len occ rem, (t.ports.get p).tx = .busy (.sync source number len) occ rem →
      (s.ports.get p).tx.isIdle = true →
        p ≠ .t ∧ t.lock = true ∧ (s.ports.get p).link = true ∧ (s.ports.get p).admin = .opened ∧
        source = s.straps.station ∧ number = s.clock.number + 1 ∧ len = t.cfg.active.params.cycleLength ∧ occ = 32 ∧
        rem = 32) ∧
    (t.ports.get p).count.syncSkipped =
      (s.ports.get p).count.syncSkipped +
        if p ≠ .t ∧ t.lock = true ∧ (s.ports.get p).link = true ∧ (s.ports.get p).admin = .opened ∧
          (s.ports.get p).tx.isIdle = false then 1 else 0

/-- The model's reading of the row SWAP (log entry 15): it is the natural cycle start at which the swap is made, so it runs the timer to 0 and
advances the number.
R54, R44, R99: SWAP with a due commit makes the staged copy active at a cycle start, advances the generation past 65,535 to 1, disarms,
and LOCK follows the sync state; COMMIT_DONE carries the new generation and the number of the cycle that begins, and is the only notice the cycle
start itself raises (`u` is what it leaves before the choices of its instant). -/
def Obligations.SwapInstallsThePendingConfiguration : Prop :=
  ∀ (s : State), s.resetHeld = false → swapDue s.cfg (s.clock.number + 1) = true →
    exec .swap s = exec .naturalCycleStart s ∧
    (∃ u t, exec .swap s = .next t ∧ t = settle u ∧
      u.events =
        { s.events.raise .commitDone none none (s.clock.number + 1)
            ((if s.cfg.generation = 65535 then (1 : Half) else s.cfg.generation + 1).setWidth 32) with
          timer := u.events.timer, poolMark := none } ∧
      (u.aux.choiceDue = PerPort.fill true) ∧
      t.cfg =
        { s.cfg with
          active := s.cfg.staged, generation := if s.cfg.generation = 65535 then 1 else s.cfg.generation + 1,
          armed := none, edited := false } ∧
      t.clock.timer = 0 ∧ t.clock.number = s.clock.number + 1 ∧ t.clock.cycleEnd = s.cfg.staged.params.cycleLength ∧
      t.sync.state = s.sync.state ∧ t.sync.good = s.sync.good ∧ t.sync.missed = s.sync.missed ∧
      (t.lock = true ↔ s.sync.state = .locked ∨ s.sync.state = .holdover)) ∧
    s.takeSwap.events =
      s.events.raise .commitDone none none s.clock.number
        ((if s.cfg.generation = 65535 then (1 : Half) else s.cfg.generation + 1).setWidth 32)

/-- R73, R75: the expiry of one egress unit removes, in every class queue of its port and from wherever they stand, the descriptors whose
deadline is earlier than the new cycle number, hands back their references, counts them in the port's LATE and, where their stream has an
entry in the configuration of the cycle that begins and a record, in the stream's LATE, asks for a choice where a queue has a new head, and leaves
every other queue.
R74: it raises one STREAM_LATE for each such stream that has a flagged descriptor among them and whose mark is not in effect, and sets the mark.
The number is that of the cycle start which left the expiry; else, at timer 0, the one just reached; taken before the cycle start, the next
one (log entry 11).
R73, R75: a natural cycle start leaves the expiry of each port for which it was not taken ahead, with its number, to a LIFETIME_EXPIRY of that
instant, so that a choice can come before or after it (the model's reading of the two rows, log entry 11). -/
def Obligations.LifetimeExpiryRemovesLateDescriptors : Prop :=
  (∀ (s : State) (p : Port), s.resetHeld = false →
    ∃ u, exec (.lifetimeExpiry p) s = .next (settle u) ∧
      (let n := (s.aux.expiryLeft.get p).getD (if s.clock.timer = 0 then s.clock.number else s.clock.number + 1)
       let c := if swapDue s.cfg n then s.cfg.staged else s.cfg.active
       let gone := (s.ports.get p).queues.toList.flatten.filter fun d => earlier d.deadline n
       let goneOf (m : StreamNo) := gone.filter fun d => d.stream = m
       let reported (m : StreamNo) : Bool :=
         (goneOf m).any (·.reportLate) && (streamEntry c m).isSome &&
           (streamRecord s.classifier.records m).any fun r => r.lateMark ≠ some n
       (∀ k, (u.ports.get p).queues.get k = ((s.ports.get p).queues.get k).filter fun d => !earlier d.deadline n) ∧
       (u.ports.get p).count =
         { (s.ports.get p).count with late := (s.ports.get p).count.late + BitVec.ofNat 32 gone.length } ∧
       u.store = gone.foldl (fun x d => x.release d.frame) s.store ∧
       (∀ m r, streamRecord s.classifier.records m = some r →
         streamRecord u.classifier.records m =
           some { r with
             late := r.late + (if (streamEntry c m).isSome then BitVec.ofNat 32 (goneOf m).length else 0)
             lateMark := if reported m then some n else r.lateMark }) ∧
       u.classifier.unknownMarks = s.classifier.unknownMarks ∧
       u.events =
         ((streamsOf gone).filter reported).foldl
           (fun e m => e.raise .streamLate (some p) (if m = 0 then none else some m) n (BitVec.ofNat 32 (goneOf m).length))
           { s.events with timer := u.events.timer } ∧
       ((∃ k d ds, (s.ports.get p).queues.get k = d :: ds ∧ earlier d.deadline n = true ∧
           ∃ x ∈ ds, earlier x.deadline n = false) → u.aux.choiceDue.get p = true)) ∧
      (∀ q, q ≠ p → (u.ports.get q).queues = (s.ports.get q).queues ∧ (u.ports.get q).count = (s.ports.get q).count) ∧
      (∀ q, (u.ports.get q).tx.isIdle = (s.ports.get q).tx.isIdle ∧ (u.ports.get q).admin = (s.ports.get q).admin ∧
        (u.ports.get q).link = (s.ports.get q).link) ∧
      u.cfg = s.cfg ∧ u.sync = s.sync ∧ u.own = s.own ∧ u.clock.number = s.clock.number) ∧
  (∀ (s : State), s.resetHeld = false →
    ∃ u, exec .naturalCycleStart s = .next (settle u) ∧ u.clock.number = s.clock.number + 1 ∧
      ∀ p,
        u.aux.expiryLeft.get p = (if s.aux.expiryTaken.get p = true then none else some (s.clock.number + 1)) ∧
        (u.ports.get p).queues = (s.ports.get p).queues ∧ (u.ports.get p).count.late = (s.ports.get p).count.late)

/-- R3, R1: when the timer reaches the start of an active window, that window is the port's open window, and while enforcing its egress unit
is asked for a choice; in fallback nothing else happens.
R3, R10: when the timer reaches the end of an active window, that window is not open, and every frame in flight goes on.
R3, R103: at the value of its start a window is not yet open before its opening is taken, and past it it is open until its end. -/
def Obligations.WindowsOpenAndClose : Prop :=
  (∀ (s : State) (w : Window), s.resetHeld = false → s.ConfigInv → w ∈ s.cfg.active.windows → s.clock.timer ≤ w.start →
    w.start < s.clock.cycleEnd →
    ∃ u, exec (.windowOpen w.port w.start) s = .next (settle u) ∧ u.clock.timer = w.start ∧
      u.clock.number = s.clock.number ∧ u.openWindow w.port = some w ∧
      (∀ q, u.aux.choiceDue.get q = (s.aux.choiceDue.get q || (decide (q = w.port) && s.enforcing))) ∧
      u.cfg = s.cfg ∧ u.sync = s.sync ∧ u.store = s.store ∧ u.own = s.own ∧
      ∀ q, (u.ports.get q).queues = (s.ports.get q).queues ∧ (u.ports.get q).count = (s.ports.get q).count) ∧
  (∀ (s : State) (w : Window), s.resetHeld = false → w ∈ s.cfg.active.windows → s.clock.timer ≤ w.stop →
    w.stop ≤ s.clock.cycleEnd →
    ∃ u, exec (.windowClose w.port w.stop) s = .next (settle u) ∧ u.clock.timer = w.stop ∧
      u.clock.number = s.clock.number ∧ u.openWindow w.port ≠ some w ∧
      (∀ q f occ rem, (s.ports.get q).tx = .busy f occ rem →
        (u.ports.get q).tx = .busy f occ (rem - (w.stop - s.clock.timer))) ∧
      u.cfg = s.cfg ∧ u.sync = s.sync ∧ u.store = s.store ∧ u.own = s.own ∧ u.aux = s.aux ∧
      ∀ q, (u.ports.get q).queues = (s.ports.get q).queues ∧ (u.ports.get q).count = (s.ports.get q).count) ∧
  (∀ (s : State) (w : Window), s.ConfigInv → w ∈ s.cfg.active.windows →
    (s.clock.timer = w.start → s.aux.openedAt.get w.port ≠ some s.clock.elapsed → s.openWindow w.port = none) ∧
    (w.start < s.clock.timer → s.clock.timer < w.stop → s.openWindow w.port = some w) ∧
    (s.clock.timer < w.start ∨ w.stop ≤ s.clock.timer → s.openWindow w.port ≠ some w))

/-! ### Synchronisation -/

/-- R92 to R95: the missed-sync evaluation at O + W + 32, by sync state.
R96: a change of the sync state raises one SYNC_STATE notice with the current cycle number and the new state, and no change raises none. -/
def Obligations.MissedSyncEvaluationActsByState : Prop :=
  ∀ (s : State) (c : Params), s.resetHeld = false → s.cfg.active.params = c → s.aux.evaluated = false →
    s.clock.timer ≤ c.syncOffset + c.halfWidth + 32 → c.syncOffset + c.halfWidth + 32 < s.clock.cycleEnd →
    ∃ t u, exec .missedSyncEvaluation s = .next t ∧ t = settle u ∧
      (let e := { s.events with timer := u.events.timer }
       u.sync = t.sync ∧
       u.events =
         if t.sync.state = s.sync.state then e
         else e.raise .syncState none none s.clock.number ((syncStateByte t.sync.state).setWidth 32)) ∧
      t.clock.timer = c.syncOffset + c.halfWidth + 32 ∧
      t.clock.number = s.clock.number ∧ t.clock.cycleEnd = s.clock.cycleEnd ∧ t.cfg = s.cfg ∧
      (s.sync.accepted = true ∨ s.sync.state = .unsynced → t.sync = s.sync ∧ t.trunkCount = s.trunkCount ∧ t.lock = s.lock) ∧
      (s.sync.accepted = false → s.sync.state ≠ .unsynced →
        t.trunkCount = { s.trunkCount with missed := s.trunkCount.missed + 1 } ∧ (s.LockInv → t.lock = t.enforcing) ∧
        (s.sync.state = .acquiring → t.sync = { s.sync with state := .unsynced, good := 0, missed := 0 }) ∧
        (s.sync.state = .locked →
          t.sync =
            if c.holdoverLimit ≤ 1 then { s.sync with state := .unsynced, good := 0, missed := 0 }
            else { s.sync with state := .holdover, missed := 1 }) ∧
        (s.sync.state = .holdover →
          t.sync =
            if c.holdoverLimit ≤ s.sync.missed + 1 then { s.sync with state := .unsynced, good := 0, missed := 0 }
            else { s.sync with missed := s.sync.missed + 1 }))

/-- R87, R88: the content checks, the window and the duplicate check of a trunk SYNC frame, in their order; each frame is counted by exactly one of
the counters, and one that is not accepted changes no timing and no state, and raises no notice but this one: a frame of another cycle length
raises CYCLE_MISMATCH with the length received, where the mismatch mark is not in effect, and sets the mark. -/
def Obligations.SyncFrameIsJudgedInOrder : Prop :=
  ∀ (s : State) (capture : Nat) (length : Half) (n received : Word) (c : Params) (error : Int),
    s.resetHeld = false → s.cfg.active.params = c → error = (capture : Int) - (c.syncOffset : Int) →
    ∃ t u, exec (.syncFrame capture length n received) s = .next t ∧ t = settle u ∧ t.cfg = s.cfg ∧
      if length ≠ 8 then
        u.events = s.events ∧ t.sync = s.sync ∧ t.clock = s.clock ∧ t.trunkCount = { s.trunkCount with format := s.trunkCount.format + 1 }
      else if received.toNat ≠ c.cycleLength then
        u.events =
          (if s.sync.mismatchMark = some s.clock.number then s.events
           else s.events.raise .cycleMismatch (some .t) none s.clock.number received) ∧
        t.sync = { s.sync with mismatchMark := some s.clock.number } ∧ t.clock = s.clock ∧
          t.trunkCount = { s.trunkCount with mismatch := s.trunkCount.mismatch + 1 }
      else if s.sync.state ≠ .unsynced ∧ ¬(-(c.halfWidth : Int) ≤ error ∧ error ≤ (c.halfWidth : Int)) then
        u.events = s.events ∧ t.sync = s.sync ∧ t.clock = s.clock ∧
          t.trunkCount = { s.trunkCount with outside := s.trunkCount.outside + 1 }
      else if s.sync.accepted = true then
        u.events = s.events ∧ t.sync = s.sync ∧ t.clock = s.clock ∧
          t.trunkCount = { s.trunkCount with duplicate := s.trunkCount.duplicate + 1 }
      else
        t.sync.accepted = true ∧ t.sync.lastError = some error ∧
          t.trunkCount = { s.trunkCount with accepted := s.trunkCount.accepted + 1, steps := t.trunkCount.steps }

/-- R90 to R94: what an accepted sync does, by sync state: a step, a good count, or a slew.
R96: a change of the sync state raises one SYNC_STATE notice with the new state; at a step it carries the new number (log entry 26).
R26: a step that changes the number clears every report mark. -/
def Obligations.AcceptedSyncActsByState : Prop :=
  ∀ (s : State) (capture : Nat) (n received : Word) (c : Params) (error : Int),
    s.resetHeld = false → s.cfg.active.params = c → error = (capture : Int) - (c.syncOffset : Int) →
    received.toNat = c.cycleLength → (s.sync.state = .unsynced ∨ error.natAbs ≤ c.halfWidth) → s.sync.accepted = false →
    ∃ t u, exec (.syncFrame capture 8 n received) s = .next t ∧ t = settle u ∧ t.cfg = s.cfg ∧
      (s.LockInv → t.lock = t.enforcing) ∧ u.sync = t.sync ∧
      u.events =
        (if t.sync.state = s.sync.state then s.events
         else s.events.raise .syncState none none t.clock.number ((syncStateByte t.sync.state).setWidth 32)) ∧
      u.classifier =
        (if t.clock.number = s.clock.number then s.classifier
         else
           { records := s.classifier.records.map fun r =>
               { r with policedMark := none, oversizeMark := none, lateMark := none }
             unknownMarks := PerPort.fill none }) ∧
      (let step :=
        t.clock = { s.clock with timer := c.syncOffset + 22, number := n, cycleEnd := c.cycleLength } ∧
        t.sync = ⟨.acquiring, 1, 0, true, some error, if n = s.clock.number then s.sync.mismatchMark else none⟩ ∧
        t.trunkCount =
          { s.trunkCount with accepted := s.trunkCount.accepted + 1, steps := s.trunkCount.steps + 1 }
       let slewed := { s.clock with cycleEnd := ((c.cycleLength : Int) + max (-8) (min 8 error)).toNat }
       let counted := t.trunkCount = { s.trunkCount with accepted := s.trunkCount.accepted + 1 }
       match s.sync.state with
       | .unsynced => step
       | .acquiring =>
         if c.lockTolerance < error.natAbs ∨ n ≠ s.clock.number then step
         else t.clock = s.clock ∧ counted ∧
           t.sync = ⟨if 3 ≤ s.sync.good + 1 then .locked else .acquiring, s.sync.good + 1, s.sync.missed, true, some error,
             s.sync.mismatchMark⟩
       | .locked =>
         if c.stepThreshold < error.natAbs ∨ n ≠ s.clock.number then step
         else t.clock = slewed ∧ counted ∧ t.sync = { s.sync with accepted := true, lastError := some error }
       | .holdover =>
         if c.stepThreshold < error.natAbs ∨ n ≠ s.clock.number then step
         else t.clock = slewed ∧ counted ∧
           t.sync = { s.sync with state := .locked, missed := 0, accepted := true, lastError := some error })

/-! ### Reception -/

/-- R110: the start of a frame on an idle receiver of a port that is UP; on T the timer is captured. -/
def Obligations.FrameStartBeginsAReception : Prop :=
  ∀ (s : State) (p : Port), s.resetHeld = false → (s.ports.get p).link = true → (s.ports.get p).rx.state = .idle →
    ∃ u, exec (.frameStart p) s = .next (settle u) ∧
      (u.ports.get p).rx = ⟨.header, if p = .t then some s.clock.timer else none, none, none, 0, 0, 0xFFFFFFFF⟩ ∧
      (∀ q, { u.ports.get q with rx := (s.ports.get q).rx } = s.ports.get q) ∧
      (∀ q, q ≠ p → u.ports.get q = s.ports.get q) ∧ { u with ports := s.ports } = s

/-- R111, R65, R107: the tests of the header decision, in order, and the claim of a data-path frame.
R150: a claim that fails raises POOL_EXHAUSTED with the port and the free blocks, where the pool mark is not in effect, and sets the mark. -/
def Obligations.HeaderDecisionRoutesTheFrame : Prop :=
  ∀ (s : State) (p : Port) (h : Header), s.resetHeld = false → (s.ports.get p).rx.state = .header →
    ∃ u, exec (.headerDecision p h) s = .next (settle u) ∧
      (u.ports.get p).rx.header = some h ∧ (u.ports.get p).rx.bytes = 10 ∧ u.cfg = s.cfg ∧ u.sync = s.sync ∧
      u.own = s.own ∧ (∀ q, (u.ports.get q).queues = (s.ports.get q).queues) ∧
      (let rx := (u.ports.get p).rx
       let count := (s.ports.get p).count
       let need := (h.length.toNat + 10 + 63) / 64
       let mine := h.kind = 0x03 ∧ h.destination = s.straps.station
       if 1024 < h.length.toNat then
         rx.state = .dropped ∧ u.store = s.store ∧ (u.ports.get p).count = { count with rxLength := count.rxLength + 1 }
       else if (s.ports.get p).admin = .drained then
         rx.state = .unkept ∧ rx.disposition = some .drained ∧ u.store = s.store ∧ (u.ports.get p).count = count
       else if h.kind ∉ [0x01, 0x02, 0x03, 0x04, 0x05] then
         rx.state = .unkept ∧ rx.disposition = some .unknownKind ∧ u.store = s.store ∧ (u.ports.get p).count = count
       else if p = .t ∧ (h.kind = 0x02 ∨ mine) then
         rx.state = .control ∧ u.store = s.store ∧ (u.ports.get p).count = count ∧
           u.control =
             some ⟨h.source, h.kind, h.tag, if h.kind = 0x02 then s.ports.t.rx.capture else none, h.length, []⟩
       else if h.kind = 0x02 then
         rx.state = .unkept ∧ rx.disposition = some .branchSync ∧ u.store = s.store ∧ (u.ports.get p).count = count
       else if mine then
         rx.state = .unkept ∧ rx.disposition = some .branchMgmt ∧ u.store = s.store ∧ (u.ports.get p).count = count
       else if need ≤ s.store.free then
         rx.state = .store ∧ rx.held = need ∧ u.store = { s.store with free := s.store.free - need } ∧
           (u.ports.get p).count = count
       else
         rx.state = .dropped ∧ u.store = s.store ∧ u.events.poolMark = some s.clock.number ∧
           (let e := { s.events with timer := u.events.timer }
            u.events =
              if s.events.poolMark = some s.clock.number then e
              else { e.raise .poolExhausted (some p) none s.clock.number (BitVec.ofNat 32 s.store.free) with
                     poolMark := some s.clock.number }) ∧
           (u.ports.get p).count = { count with rxNoBuffer := count.rxNoBuffer + 1 })

/-- R110, R114, R115: the end of a frame by the state of its receiver: a runt, a frame already refused, one whose header found the port drained,
and the end checks in order, each failure counted once and its blocks handed back. -/
def Obligations.FrameEndJudgesByState : Prop :=
  ∀ (s : State) (p : Port) (rest : List Byte) (r : Reception), s.resetHeld = false → (s.ports.get p).rx = r →
    (r.state = .header → rest.length < 10 →
      ∃ u, exec (.frameEnd p rest) s = .next (settle u) ∧ (u.ports.get p).rx.state = .idle ∧ u.store = s.store ∧
        (u.ports.get p).count = { (s.ports.get p).count with rxCheck := (s.ports.get p).count.rxCheck + 1 }) ∧
    ∀ h, r.header = some h → r.state ≠ .idle → r.state ≠ .header →
      ∃ u, exec (.frameEnd p rest) s = .next (settle u) ∧
        (r.state = .dropped →
          (u.ports.get p).rx.state = .idle ∧ u.store = s.store ∧ (u.ports.get p).count = (s.ports.get p).count) ∧
        (r.state = .unkept → r.disposition = some .drained →
          (u.ports.get p).rx.state = .idle ∧ u.store = s.store ∧
            (u.ports.get p).count =
              { (s.ports.get p).count with rxDrained := (s.ports.get p).count.rxDrained + 1 }) ∧
        (r.state ≠ .dropped → ¬(r.state = .unkept ∧ r.disposition = some .drained) →
          let payload := rest.take (rest.length - 4)
          let checked := 4 ≤ rest.length ∧ rest.drop (rest.length - 4) = be32 (~~~(crcBytes r.check payload))
          let returned := (u.ports.get p).rx.state = .idle ∧
            u.store = { s.store with free := s.store.free + r.held } ∧ u.classifier = s.classifier ∧
            u.sync = s.sync ∧ u.mgmt.restartPending = s.mgmt.restartPending
          (¬checked →
            returned ∧
              (u.ports.get p).count = { (s.ports.get p).count with rxCheck := (s.ports.get p).count.rxCheck + 1 }) ∧
          (checked → payload.length ≠ h.length.toNat →
            returned ∧
              (u.ports.get p).count =
                { (s.ports.get p).count with rxLength := (s.ports.get p).count.rxLength + 1 }) ∧
          (checked → payload.length = h.length.toNat → r.disposition = some .unknownKind →
            returned ∧
              (u.ports.get p).count = { (s.ports.get p).count with rxKind := (s.ports.get p).count.rxKind + 1 }))

/-- R116, R108: the delivery of a frame that passed the end checks, by its route: to the classifier, to the cycle timer unit, to the management
unit, or, for a request of station 0 or 255 and for a branch's SYNC and request frames, to none. That the frame is counted in RX_FRAMES before
it is handed over, so that RX_FRAMES reads 0 after a delivered CLEAR_COUNTERS, is the model's choice (log entry 16, DESIGN CHOICE): R116 and R144
leave the order of the two open. So is that the byte times of the frame pass first, with the fall of a tick of its last instant (log entry 28). -/
def Obligations.DeliveredFrameGoesByItsRoute : Prop :=
  ∀ (s : State) (p : Port) (h : Header) (payload check : List Byte) (r : Reception), s.resetHeld = false →
    (s.ports.get p).rx = r → r.header = some h → check = be32 (~~~(crcBytes r.check payload)) → payload.length = h.length.toNat → r.disposition ≠ some .unknownKind →
    let t := (s.advance (10 + payload.length + 4 - r.bytes)).finishReception p
    let frames := t.onCount p fun k => { k with rxFrames := k.rxFrames + 1 }
    (r.state = .store → exec (.frameEnd p (payload ++ check)) s = .next (settle (frames.classify p h payload r.held))) ∧
    (r.state = .unkept → r.disposition = some .branchSync →
      exec (.frameEnd p (payload ++ check)) s =
        .next (settle (t.onCount p fun k => { k with rxSyncBranch := k.rxSyncBranch + 1 }))) ∧
    (r.state = .unkept → r.disposition = some .branchMgmt →
      exec (.frameEnd p (payload ++ check)) s =
        .next (settle (t.onCount p fun k => { k with rxMgmtBranch := k.rxMgmtBranch + 1 }))) ∧
    ∀ c, p = .t → r.state = .control → s.control = some c →
      (∀ v, c.kind = 0x02 → c.capture = some v →
        exec (.frameEnd p (payload ++ check)) s =
          .next (settle (frames.takeSync v c.length (wordAt (payload.take 128) 0) (wordAt (payload.take 128) 4)))) ∧
      (c.kind = 0x03 → (c.source = 0 ∨ c.source = 255) →
        exec (.frameEnd p (payload ++ check)) s =
          .next (settle (t.onCount p fun k => { k with rxMgmtSource := k.rxMgmtSource + 1 }))) ∧
      (c.kind = 0x03 → c.source ≠ 0 → c.source ≠ 255 →
        exec (.frameEnd p (payload ++ check)) s =
          .next (settle (frames.deliverRequest c.source c.tag c.length (payload.take 128))))

/-- R166: the receiver's computation over a frame's bytes and the check sent after them ends in the constant remainder, whatever the bytes; so any
frame the gate sends passes a receiver's check.
11.1, R8: what the line of a port carries while its transmitter sends a frame: the start sequence, the frame's bytes, the check over them, and then
nothing for the gap; nothing while it is idle. 11.4: the pins show the less significant nibble first.
R67, R77, R101, R106: the bytes of each kind of frame: a stored frame's; an own frame's header and payload; a branch sync frame's. -/
def Obligations.FrameCheckLeavesTheConstantRemainder : Prop :=
  (∀ bytes : List Byte, crcBytes crcPreset (bytes ++ frameCheck bytes) = 0xC704DD7B) ∧
  (∀ (s : State) (p : Port),
    ((s.ports.get p).tx = .idle → s.lineByte p = none) ∧
    (∀ f occ rem, (s.ports.get p).tx = .busy f occ rem →
      let bytes := txFrameBytes s.store f
      let i := occ - rem
      (i < 4 → s.lineByte p = if i = 3 then some 0x4B else some 0xAA) ∧
      (4 ≤ i → i < 4 + bytes.length → s.lineByte p = bytes[i - 4]?) ∧
      (4 + bytes.length ≤ i → i < 8 + bytes.length → s.lineByte p = (frameCheck bytes)[i - (4 + bytes.length)]?) ∧
      (8 + bytes.length ≤ i → s.lineByte p = none)) ∧
    s.txPins p = (s.lineByte p).map fun b => (b.extractLsb' 0 4, b.extractLsb' 4 4)) ∧
  ∀ (x : FrameStore),
    (∀ d y, (x.frames.find? fun f => f.ref = d.frame) = some y → txFrameBytes x (.data d) = y.bytes) ∧
    (∀ f : OwnFrame, txFrameBytes x (.own f) =
      [f.destination, f.source, if f.kind = .response then 0x04 else 0x05, 16, 0, 0] ++
        be16 (BitVec.ofNat 16 f.payload.length) ++ be16 f.tag ++ f.payload) ∧
    ∀ source number len, txFrameBytes x (.sync source number len) =
      [255, source, 0x02, 16, 0, 0, 0, 8, 0, 0] ++ be32 number ++ be32 (BitVec.ofNat 32 len)

/-- 11.2, R168: the bytes of a request, delivered to the management unit, are carried out as that request's row: every field of every request is
read from the place and with the width the layout gives it. -/
def Obligations.DeliveredBytesSpellTheRequest : Prop :=
  (∀ (s : State) (c : Instr) (q : RequestRow), requestRow c = some q → q.head.length.toNat = q.bodyLength + 2 →
    (requestBody c).length = q.bodyLength ∧
    exec c s =
      taken s fun s =>
        s.deliverRequest q.head.source q.head.tag q.head.length (q.code :: q.head.flags :: requestBody c)) ∧
  ∀ (s : State) (r : RequestHead) (mode : Byte) (lease : Half), r.length.toNat = 5 →
    exec (.openSession r mode lease) s =
      taken s fun s => s.deliverRequest r.source r.tag r.length (0x01 :: r.flags :: requestBody (.openSession r mode lease))

/-! ### Classification and admission -/

/-- R30 whole: a hop limit of 0 is counted in RX_HOP of the port of arrival, and the frame is discarded with no event and no stream counter; any
other hop limit passes. -/
def Obligations.HopLimitZeroIsDiscarded : Prop :=
  ∀ (s : State) (p : Port) (h : Header) (payload : List Byte) (held : Nat),
    let t := s.classify p h payload held
    (h.hopLimit = 0 →
      t.events = s.events ∧ t.classifier = s.classifier ∧ t.store = { s.store with free := s.store.free + held } ∧
      (∀ q, t.ports.get q =
        { s.ports.get q with
          count := { (s.ports.get q).count with
            rxHop := (s.ports.get q).count.rxHop + if q = p then 1 else 0 } })) ∧
    (h.hopLimit ≠ 0 → ∀ q, (t.ports.get q).count.rxHop = (s.ports.get q).count.rxHop)

/-- R29, R31 to R34, R36: the checks after the hop check, in order: no entry, wrong ingress port, too long, no budget. Each refusal is counted by exactly one
counter, its blocks return to the pool, and it is reported only where the rule says, under its mark. -/
def Obligations.ClassifierRefusesByTheFirstFailingCheck : Prop :=
  ∀ (s : State) (p : Port) (h : Header) (payload : List Byte) (held : Nat), h.hopLimit ≠ 0 →
    let t := s.classify p h payload held
    let n := streamNo h
    let discarded := t.store = { s.store with free := s.store.free + held } ∧ t.own = s.own
    (streamEntry s.cfg.active n = none →
      discarded ∧ t.classifier.records = s.classifier.records ∧
      t.classifier.unknownMarks.get p = some s.clock.number ∧
      (∀ q, q ≠ p → t.classifier.unknownMarks.get q = s.classifier.unknownMarks.get q) ∧
      t.events =
        (if s.classifier.unknownMarks.get p = some s.clock.number then s.events
         else s.events.raise .unknownStream (some p) (if n = 0 then none else some n) s.clock.number 0) ∧
      ∀ q, t.ports.get q =
        { s.ports.get q with
          count := { (s.ports.get q).count with
            rxUnknown := (s.ports.get q).count.rxUnknown + if q = p then 1 else 0 } }) ∧
    ∀ e r, streamEntry s.cfg.active n = some e → streamRecord s.classifier.records n = some r →
      (p ≠ e.ingress →
        discarded ∧ t.classifier = s.classifier ∧ t.events = s.events ∧
        ∀ q, t.ports.get q =
          { s.ports.get q with
            count := { (s.ports.get q).count with
              rxWrongPort := (s.ports.get q).count.rxWrongPort + if q = p then 1 else 0 } }) ∧
      (p = e.ingress → e.maxPayload < payload.length →
        discarded ∧ t.ports = s.ports ∧ t.classifier.unknownMarks = s.classifier.unknownMarks ∧
        (let reported := e.report.oversize = true ∧ r.oversizeMark ≠ some s.clock.number
         t.events =
           (if reported then
              s.events.raise .streamOversize (some p) (if n = 0 then none else some n) s.clock.number
                (BitVec.ofNat 32 payload.length)
            else s.events) ∧
         streamRecord t.classifier.records n =
           some { r with oversize := r.oversize + 1,
                         oversizeMark := if reported then some s.clock.number else r.oversizeMark })) ∧
      (p = e.ingress → payload.length ≤ e.maxPayload → e.budget ≠ 0 → r.budgetRemaining = 0 →
        discarded ∧ t.ports = s.ports ∧ t.classifier.unknownMarks = s.classifier.unknownMarks ∧
        (let reported := e.report.policed = true ∧ r.policedMark ≠ some s.clock.number
         t.events =
           (if reported then
              s.events.raise .streamPoliced (some p) (if n = 0 then none else some n) s.clock.number (r.policedNow + 1)
            else s.events) ∧
         streamRecord t.classifier.records n =
           some { r with policed := r.policed + 1, policedNow := r.policedNow + 1,
                         policedMark := if reported then some s.clock.number else r.policedMark }))

/-- R34, R35, R37 to R39: an accepted frame uses one of its budget, where it has one, and is counted RECEIVED. A port outside the egress set is not
touched; a port in it refuses the frame, counted by the first condition that fails, or takes it at the tail of its class queue with its six items. The
frame is stored with its hop limit lowered and one reference per descriptor, or its blocks return to the pool. -/
def Obligations.AcceptedFrameIsAdmittedPortByPort : Prop :=
  ∀ (s : State) (p : Port) (h : Header) (payload : List Byte) (held : Nat) (e : StreamEntry) (r : StreamRecord),
    h.hopLimit ≠ 0 → streamEntry s.cfg.active (streamNo h) = some e →
    streamRecord s.classifier.records e.stream = some r → p = e.ingress → payload.length ≤ e.maxPayload →
    (e.budget = 0 ∨ r.budgetRemaining ≠ 0) →
    let t := s.classify p h payload held
    let admits (q : Port) : Prop := e.egress.get q = true ∧ (s.ports.get q).link = true ∧
      (s.ports.get q).admin = .opened ∧ ((s.ports.get q).queues.get e.cls).length < 32
    (t.events = s.events ∧
      ∃ x, streamRecord t.classifier.records e.stream = some x ∧ x.received = r.received + 1 ∧
        x.budgetRemaining = (if e.budget = 0 then r.budgetRemaining else r.budgetRemaining - 1) ∧
        x.policed = r.policed ∧ x.policedNow = r.policedNow ∧ x.oversize = r.oversize ∧ x.forwarded = r.forwarded ∧
        x.noQueue = r.noQueue +
          BitVec.ofNat 32 (Port.all.filter fun q => decide (e.egress.get q = true ∧ ¬((s.ports.get q).link = true ∧
            (s.ports.get q).admin = .opened ∧ ((s.ports.get q).queues.get e.cls).length < 32))).length) ∧
    ∃ ref, (∀ f ∈ s.store.frames, f.ref ≠ ref) ∧
      (∀ q,
        let u := s.ports.get q
        (admits q →
          t.ports.get q =
            { u with
              queues := u.queues.set e.cls
                (u.queues.get e.cls ++
                  [⟨ref, e.stream, payload.length, e.cls, s.clock.number + BitVec.ofNat 32 e.lifetime - 1,
                    e.report.late⟩]) }) ∧
        (e.egress.get q = false → t.ports.get q = u) ∧
        (e.egress.get q = true → ¬admits q →
          t.ports.get q =
            { u with
              count :=
                if u.link = false then { u.count with txLinkDown := u.count.txLinkDown + 1 }
                else if u.admin ≠ .opened then { u.count with txDrained := u.count.txDrained + 1 }
                else { u.count with queueFull := u.count.queueFull + 1 } })) ∧
      ((∀ q, ¬admits q) → t.store = { s.store with free := s.store.free + held }) ∧
      ((∃ q, admits q) →
        ∃ n, 1 ≤ n ∧ n ≤ 5 ∧ t.store.free = s.store.free ∧
          t.store.frames = s.store.frames ++ [⟨ref, headerBytes { h with hopLimit := h.hopLimit - 1 } ++ payload, held, n⟩] ∧
          ∃ admitted : List Port, admitted.Nodup ∧ admitted.length = n ∧ ∀ q, q ∈ admitted ↔ admits q)

/-! ### Egress -/

/-- R12 to R18: a choice starts a frame only on an idle transmitter of a port that is UP, and only one it may start. A data frame stood in its class
queue, is live, goes out under PASS, or while enforcing inside an open window that admits its class and holds all of it. An own frame
was the head of the own queue and starts on T, while enforcing inside a window that admits class 0 and holds it. -/
def Obligations.ChoiceStartsOnlyWhatMayStart : Prop :=
  ∀ (s : State) (p q : Port) (f : TxFrame) (occ rem : Nat), ((s.choose p).ports.get q).tx = .busy f occ rem →
    (s.ports.get q).tx = .busy f occ rem ∨
    q = p ∧ (s.ports.get p).tx = .idle ∧ (s.ports.get p).link = true ∧ rem = occ ∧
      ((∃ d c, f = .data d ∧ d ∈ (s.ports.get p).queues.get c ∧ occ = d.length + 24 ∧
          earlier d.deadline s.clock.number = false ∧
          (s.mode = .pass ∨ s.mode = .enforcing ∧ ∃ w, s.openWindow p = some w ∧ w.classes.get c = true ∧
            s.clock.timer + occ ≤ w.stop)) ∨
        ∃ o rest, f = .own o ∧ p = .t ∧ s.own = o :: rest ∧ (s.choose p).own = rest ∧ occ = o.payload.length + 24 ∧
          (s.mode = .enforcing → ∃ w, s.openWindow p = some w ∧ w.classes.get 0 = true ∧ s.clock.timer + occ ≤ w.stop))

/-- R12, R14, R17: the order of a choice. The first class, in order, that the mode lets be served, whose head is live and, while enforcing, fits, is
started where on T no own frame is started before it; a class before it is passed over only where its queue is empty, or, while enforcing,
where the window does not admit it or its live head does not fit.
R15, R74: a head that is not live, met in a class that the choice comes to, is removed and accounted, its STREAM_LATE with a detail of 1 raised under its
flag and mark, and the choice goes on as one on the state without it.
R12, R17, R18: on T the head of the own queue is started before every class, in every mode, while enforcing where the window admits class 0 and
it fits. -/
def Obligations.ChoiceCommandStartsTheFirstCandidate : Prop :=
  (∀ (s : State) (p : Port) (c : Fin 4) (d : Descriptor) (behind : List Descriptor), s.resetHeld = false →
    (s.ports.get p).tx = .idle → (s.ports.get p).link = true → (s.ports.get p).queues.get c = d :: behind →
    d.live s.clock.number = true →
    (let fits (n : Nat) : Prop := s.mode = .pass ∨
       s.mode = .enforcing ∧ ∃ w, s.openWindow p = some w ∧ s.clock.timer + n + 24 ≤ w.stop
     let admits (x : Fin 4) : Prop := s.mode = .pass ∨
       s.mode = .enforcing ∧ ∃ w, s.openWindow p = some w ∧ w.classes.get x = true
     admits c → fits d.length →
     (p = .t → ∀ o rest, s.own = o :: rest → admits 0 → ¬fits o.payload.length) →
     (∀ x, x < c → admits x → ∀ y ys, (s.ports.get p).queues.get x = y :: ys → y.live s.clock.number = true ∧ ¬fits y.length) →
     ∃ u, exec (.choice p) s = .next (settle u) ∧
       u.ports.get p =
         { s.ports.get p with
           queues := (s.ports.get p).queues.set c behind, tx := .busy (.data d) (d.length + 24) (d.length + 24) } ∧
       (∀ q, q ≠ p → u.ports.get q = s.ports.get q) ∧ { u with ports := s.ports } = s) ∧
    (s.mode = .block → p ≠ .t → exec (.choice p) s = .next (settle s)) ∧
    (s.mode = .enforcing → s.openWindow p = none → exec (.choice p) s = .next (settle s))) ∧
  (∀ (s : State) (p : Port) (c : Fin 4) (d : Descriptor) (behind : List Descriptor), s.resetHeld = false →
    (s.ports.get p).tx = .idle → (s.ports.get p).link = true → (s.ports.get p).queues.get c = d :: behind →
    d.live s.clock.number = false →
    (let fits (n : Nat) : Prop := s.mode = .pass ∨
       s.mode = .enforcing ∧ ∃ w, s.openWindow p = some w ∧ s.clock.timer + n + 24 ≤ w.stop
     let admits (x : Fin 4) : Prop := s.mode = .pass ∨
       s.mode = .enforcing ∧ ∃ w, s.openWindow p = some w ∧ w.classes.get x = true
     let entry := streamEntry s.cfg.active d.stream
     let reported : Prop := d.reportLate = true ∧ entry ≠ none ∧
       ∃ r, streamRecord s.classifier.records d.stream = some r ∧ r.lateMark ≠ some s.clock.number
     admits c →
     (p = .t → ∀ o rest, s.own = o :: rest → admits 0 → ¬fits o.payload.length) →
     (∀ x, x < c → admits x → ∀ y ys, (s.ports.get p).queues.get x = y :: ys → y.live s.clock.number = true ∧ ¬fits y.length) →
     ∃ v, exec (.choice p) s = .next (settle (v.choose p)) ∧ exec (.choice p) v = .next (settle (v.choose p)) ∧
       v.ports.get p =
         { s.ports.get p with
           queues := (s.ports.get p).queues.set c behind
           count := { (s.ports.get p).count with late := (s.ports.get p).count.late + 1 } } ∧
       (∀ q, q ≠ p → v.ports.get q = s.ports.get q) ∧ v.store = s.store.release d.frame ∧
       (entry = none → v.classifier = s.classifier) ∧
       (entry ≠ none → ∀ m r, streamRecord s.classifier.records m = some r →
         ∃ x, streamRecord v.classifier.records m = some x ∧ (m ≠ d.stream → x = r) ∧
           (m = d.stream → (reported → x = { r with late := r.late + 1, lateMark := some s.clock.number }) ∧
             (¬reported → x = { r with late := r.late + 1 }))) ∧
       (reported →
         v.events = s.events.raise .streamLate (some p) (if d.stream = 0 then none else some d.stream) s.clock.number 1) ∧
       (¬reported → v.events = s.events) ∧
       { v with ports := s.ports, store := s.store, classifier := s.classifier, events := s.events } = s)) ∧
  ∀ (s : State) (o : OwnFrame) (rest : List OwnFrame), s.resetHeld = false → s.ports.t.tx = .idle → s.ports.t.link = true →
    s.own = o :: rest →
    (s.mode = .enforcing →
      ∃ w, s.openWindow .t = some w ∧ w.classes.get 0 = true ∧ s.clock.timer + o.payload.length + 24 ≤ w.stop) →
    ∃ u, exec (.choice .t) s = .next (settle u) ∧ u.own = rest ∧
      u.ports.t =
        { s.ports.t with tx := .busy (.own o) (o.payload.length + 24) (o.payload.length + 24) } ∧
      (∀ q, q ≠ .t → u.ports.get q = s.ports.get q) ∧ { u with ports := s.ports, own := s.own } = s

/-- R71, R103, R80, R145: the normal ends. A data frame hands back its reference and is counted for the port and, where its stream has an active entry,
for the stream; a branch sync frame is counted; an own frame frees its slot; and the egress unit is asked for a choice. The end of the restart
response is the warm restart.
R79, R159: the freed slot is still free after the command, and no report is built or retransmitted with it, so that a response of the same instant
can take it first; that the model leaves it to the next command is log entry 27. -/
def Obligations.TransmissionEndsNormally : Prop :=
  ∀ (s : State) (p : Port) (occ rem : Nat), s.resetHeld = false →
    (∀ d, (s.ports.get p).tx = .busy (.data d) occ rem →
      ∃ u, exec (.dataTxEnd p) s = .next (settle u) ∧ (u.ports.get p).tx = .idle ∧
        (u.ports.get p).count = { (s.ports.get p).count with txFrames := (s.ports.get p).count.txFrames + 1 } ∧
        u.store = s.store.release d.frame ∧ u.aux.choiceDue.get p = true ∧
        u.classifier.records =
          (if (∃ e ∈ s.cfg.active.streams, e.stream = d.stream) then
            s.classifier.records.map fun r => if r.stream = d.stream then { r with forwarded := r.forwarded + 1 } else r
           else s.classifier.records) ∧
        (∀ q, (u.ports.get q).queues = (s.ports.get q).queues) ∧ u.cfg = s.cfg ∧ u.own = s.own) ∧
    (∀ source number len, (s.ports.get p).tx = .busy (.sync source number len) occ rem →
      ∃ u, exec (.syncTxEnd p) s = .next (settle u) ∧ (u.ports.get p).tx = .idle ∧
        (u.ports.get p).count = { (s.ports.get p).count with syncSent := (s.ports.get p).count.syncSent + 1 } ∧
        u.store = s.store ∧ u.aux.choiceDue.get p = true ∧ u.classifier = s.classifier ∧
        (∀ q, (u.ports.get q).queues = (s.ports.get q).queues) ∧ u.cfg = s.cfg ∧ u.own = s.own) ∧
    (∀ f, s.ports.t.tx = .busy (.own f) occ rem →
      ∃ u, exec .ownTxEnd s = .next (settle u) ∧ u.ports.t.tx = .idle ∧
        (f.restartMark = false →
          u.ports.t.count = s.ports.t.count ∧ u.store = s.store ∧ u.own = s.own ∧ u.aux.choiceDue.t = true ∧
            u.slotsTaken + 1 = s.slotsTaken ∧ (settle u).slotsTaken + 1 = s.slotsTaken ∧
            (settle u).events.report = s.events.report ∧ (∀ q, (u.ports.get q).queues = (s.ports.get q).queues) ∧ u.cfg = s.cfg) ∧
        (f.restartMark = true → u = (s.advance rem).warmRestart))

/-! ### Links, drains and restart -/

/-- R122, R128, R117, R72, R76, R80: a link loss, on T with no restart response waiting or in flight: the reception is abandoned and counted unless it was
already counted, the frame in flight is cut off, the queues are flushed and counted, LINK_CHANGE is raised, and a drain in progress
finishes with reason LINK and the total flushed.
R80, R145: a link loss on T that cuts off or flushes the restart response carries out the warm restart at that instant. That the restart is taken last,
so that the LINK_CHANGE of the loss is emptied and RESTARTED stands alone, is the model's choice (log entry 16, DESIGN CHOICE): R80, R122, R147 and
R160 do not order the two. -/
def Obligations.LinkLossTakesThePortDown : Prop :=
  (∀ (s : State) (p : Port) (v : PortUnit), s.resetHeld = false → s.ports.get p = v → v.link = true →
    (p = .t → s.restartResponseOut = false) →
    ∃ u, exec (.linkLoss p) s = .next (settle u) ∧
      (let w := u.ports.get p
       let flushed := v.queued + if p = .t then s.own.length else 0
       w.link = false ∧ w.rx.state = .idle ∧ w.tx = .idle ∧ (∀ c, w.queues.get c = []) ∧
       w.count =
         { v.count with
           rxCheck := v.count.rxCheck + (if v.rx.state = .idle ∨ v.rx.state = .dropped then 0 else 1)
           txAborted := v.count.txAborted + (if v.tx = .idle then 0 else 1)
           txFlushed := v.count.txFlushed + BitVec.ofNat 32 flushed } ∧
       w.admin = (if v.admin = .draining then .drained else v.admin) ∧
       u.own = (if p = .t then [] else s.own) ∧ (p = .t → u.control = none) ∧
       u.events =
         (let e := s.events.raise .linkChange (some p) none s.clock.number 0
          match v.admin with
          | .draining =>
            e.raise .drainDone (some p) none s.clock.number
              (drainDetail true ((v.drain.map (·.flushed)).getD 0 + v.queued))
          | _ => e)) ∧
      (∀ q, q ≠ p → u.ports.get q = s.ports.get q) ∧ u.cfg = s.cfg ∧ u.sync = s.sync ∧ u.classifier = s.classifier) ∧
  (∀ s : State, s.resetHeld = false → s.ports.t.link = true →
    (s.own.any (·.restartMark) = true ∨ ∃ f occ rem, s.ports.t.tx = .busy (.own f) occ rem ∧ f.restartMark = true) →
    ∃ u t : State, u.ports.t.link = false ∧ exec (.linkLoss .t) s = .next t ∧ t = settle u.warmRestart ∧
      t.mgmt.restartPending = false ∧ (∀ i, t.mgmt.slots.get i = none) ∧ t.own = [] ∧
      t.cfg.generation = s.cfg.generation ∧ t.cfg.active = s.cfg.active ∧ t.clock = s.clock)

/-- R123: a link return raises LINK_CHANGE with UP, keeps the admin state, and asks the egress unit for a choice.
R126: a DRAINING port that is idle and empty becomes DRAINED, its drain record goes, and DRAIN_DONE is raised with COMPLETE and the flushed count of
the record; a port still sending or holding descriptors is not. -/
def Obligations.LinkReturnAndDrainCompletion : Prop :=
  (∀ (s : State) (p : Port), s.resetHeld = false → (s.ports.get p).link = false →
    ∃ u, exec (.linkReturn p) s = .next (settle u) ∧ u.ports.get p = { s.ports.get p with link := true } ∧
      (∀ q, q ≠ p → u.ports.get q = s.ports.get q) ∧
      u.events = s.events.raise .linkChange (some p) none s.clock.number 1 ∧
      (∀ q, u.aux.choiceDue.get q = (s.aux.choiceDue.get q || decide (q = p))) ∧ u.store = s.store ∧ u.own = s.own ∧
      u.cfg = s.cfg ∧ u.sync = s.sync ∧ u.classifier = s.classifier) ∧
  (∀ (s : State) (p : Port) (r : DrainRecord), s.resetHeld = false → (s.ports.get p).admin = .draining →
    (s.ports.get p).drain = some r →
    ((s.ports.get p).tx = .idle → (∀ c, (s.ports.get p).queues.get c = []) →
      ∃ u, exec (.drainCompletion p) s = .next (settle u) ∧
        u.ports.get p = { s.ports.get p with admin := .drained, drain := none } ∧
        (∀ q, q ≠ p → u.ports.get q = s.ports.get q) ∧
        u.events = s.events.raise .drainDone (some p) none s.clock.number (BitVec.ofNat 24 r.flushed |>.setWidth 32) ∧
        u.store = s.store ∧ u.own = s.own ∧ u.cfg = s.cfg ∧ u.classifier = s.classifier) ∧
    ((s.ports.get p).tx ≠ .idle ∨ (∃ c, (s.ports.get p).queues.get c ≠ []) →
      exec (.drainCompletion p) s = .next (settle s)))

/-- R146 with R28, R62, R82, R85, R118, R121 and R160: what every block holds after a warm restart; clock, active configuration, generation, straps and link
states are kept. That the row restarts at once wherever the mark is set, with the restart response still waiting or in flight too, is the model's
choice (log entry 29, DESIGN CHOICE): R145 names four events that bring the restart on, and does not speak of the row.
R147: a request frame on T that ends at the instant of a warm restart taken first, all its bytes having arrived, is judged against the empty slots (the
model's reading beside R82 and R118, log entry 25). -/
def Obligations.WarmRestartResetsEveryBlock : Prop :=
  (∀ s : State, s.resetHeld = false → s.mgmt.restartPending = true →
    ∃ t, exec .warmRestart s = .next t ∧ t.lock = false ∧ t.clock = s.clock ∧ t.straps = s.straps ∧
      t.sync = ⟨.unsynced, 0, 0, false, none, none⟩ ∧ t.trunkCount = .zero ∧
      t.cfg = { s.cfg with staged := s.cfg.active, armed := none, edited := false } ∧
      t.classifier.records =
        s.cfg.active.streams.map (fun e => ⟨e.stream, e.budget, 0, 0, 0, 0, 0, 0, 0, none, none, none⟩) ∧
      t.store = ⟨512, []⟩ ∧ t.own = [] ∧ t.control = none ∧ (∀ i, t.mgmt.slots.get i = none) ∧
      t.mgmt.restartPending = false ∧
      t.events = ⟨[⟨⟨1, .restarted, none, none, s.clock.number, 0⟩, false⟩], 1, [], 0, none, none, none, none⟩ ∧
      ∀ p, t.classifier.unknownMarks.get p = none ∧
        t.ports.get p = ⟨(s.ports.get p).link, .opened, none, .rest, .idle, Quad.fill [], .zero⟩) ∧
  (∀ (s : State) (h : Header) (c : ControlFrame) (payload check : List Byte), s.resetHeld = false →
    s.mgmt.restartPending = true → s.ports.t.link = true → s.ports.t.rx.state = .control → s.ports.t.rx.header = some h →
    s.control = some c → c.kind = 0x03 → c.source ≠ 0 → c.source ≠ 255 → payload.length = h.length.toNat →
    check = be32 (~~~(crcBytes s.ports.t.rx.check payload)) → s.ports.t.rx.bytes = 10 + payload.length + 4 →
    ∃ t v : State, exec .warmRestart s = .next t ∧ { v with aux := t.aux } = t ∧ (∀ i, v.mgmt.slots.get i = none) ∧
      exec (.frameEnd .t (payload ++ check)) t =
        .next (settle ((v.onCount .t fun k => { k with rxFrames := k.rxFrames + 1 }).deliverRequest c.source c.tag c.length
          (payload.take 128))))

/-! ### Event notices -/

/-- R152 whole: a raised notice is queued with the next sequence number, or lost into the overflow set and the lost count. -/
def Obligations.RaisedNoticeIsQueuedOrLost : Prop :=
  ∀ (e : EventUnit) (kind : NoticeKind) (port : Option Port) (stream : Option StreamNo) (cycle detail : Word),
    let t := e.raise kind port stream cycle detail
    let ordinary := (e.queue.filter fun x => x.notice.kind ≠ .overflow).length
    t.sink = e.sink ∧ t.report = e.report ∧ t.timer = e.timer ∧ t.poolMark = e.poolMark ∧
    (e.overflowSet = [] → ordinary < 31 →
      t.queue = e.queue ++ [⟨⟨e.lastAssigned + 1, kind, port, stream, cycle, detail⟩, false⟩] ∧
        t.lastAssigned = e.lastAssigned + 1 ∧ t.overflowSet = [] ∧ t.lostCount = e.lostCount) ∧
    (e.overflowSet ≠ [] ∨ 31 ≤ ordinary →
      t.queue = e.queue ∧ t.lastAssigned = e.lastAssigned ∧
        (∀ k, k ∈ t.overflowSet ↔ k = kind ∨ k ∈ e.overflowSet) ∧
        t.lostCount = min (e.lostCount + 1) 65535)

/-- R153: the OVERFLOW notice is queued exactly when its three conditions hold, with the next sequence number, the overflow set and the lost count; the
set is then empty and the count 0. -/
def Obligations.OverflowNoticeIsQueued : Prop :=
  ∀ s : State, s.resetHeld = false →
    (let holds := s.events.overflowSet ≠ [] ∧ (s.events.queue.filter fun x => x.notice.kind ≠ .overflow).length < 31 ∧
       ∀ x ∈ s.events.queue, x.notice.kind ≠ .overflow
     ∃ u, exec .overflowQueued s = .next (settle u) ∧ { u with events := s.events } = s ∧
      (holds →
        u.events =
          { s.events with
            queue := s.events.queue ++
              [⟨⟨s.events.lastAssigned + 1, .overflow, none, none, s.clock.number,
                overflowDetail s.events.overflowSet s.events.lostCount⟩, false⟩]
            lastAssigned := s.events.lastAssigned + 1, overflowSet := [], lostCount := 0 }) ∧
      (¬holds → u.events = s.events))

/-- R155: a report is built where its four conditions hold: the oldest UNSENT notices, at most eight, become SENT and travel to the sink in one EVENT
frame, and the timer starts with the active retransmit time; where one of the four fails, nothing is built. -/
def Obligations.ReportIsBuiltWhenItsConditionsHold : Prop :=
  ∀ s : State, s.resetHeld = false →
    (let first := ((s.events.queue.filter fun x => !x.sent).map (·.notice)).take 8
     (∀ sink, s.events.sink = some sink → s.events.report = none → first ≠ [] → s.slotsTaken < 8 →
      ∃ u, exec .reportBuild s = .next (settle u) ∧
        u.own = s.own ++ [⟨.report, sink, s.straps.station, (first.head?.map (·.sequence)).getD 0,
          BitVec.ofNat 8 first.length :: (first.map noticeBytes).flatten, false⟩] ∧
        u.events.report = some ⟨1, false⟩ ∧ u.events.timer = some s.cfg.active.params.retransmitTime ∧
        u.events.sink = some sink ∧ u.events.lastAssigned = s.events.lastAssigned ∧
        u.events.queue.map (·.notice) = s.events.queue.map (·.notice) ∧
        (s.events.NoticesUnsent → (u.events.queue.filter (·.sent)).map (·.notice) = first) ∧
        u.store = s.store ∧ u.ports = s.ports) ∧
     (s.events.sink = none ∨ s.events.report ≠ none ∨ first = [] ∨ 8 ≤ s.slotsTaken →
      exec .reportBuild s = .next (settle s)))

/-- R156, R157: the expiry of the retransmit timer, once the ticks have run it down to 0; before that nothing expires. That the row carries no time, so
that the clock stays, is the model's choice (log entry 4). After one to three sends a retransmission is due and the timer is stopped; after the fourth the sink is lost:
it and its session's flag are cleared, SENT notices return to UNSENT, the report is gone and SINK_LOST is raised.
R156: a due retransmission with a free slot is rebuilt from the SENT notices, its send count goes up by one and the timer restarts; with no free slot it stays
due. -/
def Obligations.RetransmissionsAndSinkLoss : Prop :=
  (∀ s : State, s.resetHeld = false → s.events.timer ≠ some 0 → exec .retransmitTimerExpiry s = .next (settle s)) ∧
  (∀ (s : State) (r : Report), s.resetHeld = false → s.events.timer = some 0 → s.events.report = some r →
    ∃ u, exec .retransmitTimerExpiry s = .next (settle u) ∧ u.clock = s.clock ∧ u.ports = s.ports ∧ u.own = s.own ∧
      u.cfg = s.cfg ∧
      (r.sends < 4 → u.events = { s.events with timer := none, report := some ⟨r.sends, true⟩ }) ∧
      (∀ sink, 4 ≤ r.sends → s.events.sink = some sink →
        u.events =
          EventUnit.raise
            { s.events with
              queue := s.events.queue.map fun x => { x with sent := false }, sink := none, report := none, timer := none }
            .sinkLost none none s.clock.number (sink.setWidth 32) ∧
        ∀ i x, s.mgmt.slots.get i = some x →
          u.mgmt.slots.get i =
            some { x with sink := if x.station = sink then false else x.sink })) ∧
  (∀ (s : State) (r : Report) (sink : Byte), s.resetHeld = false → s.events.sink = some sink →
    s.events.report = some r → r.due = true →
    (let sent := ((s.events.queue.filter (·.sent)).map (·.notice)).take 8
     (s.slotsTaken < 8 →
      ∃ u, exec .deferredRetransmission s = .next (settle u) ∧
        u.own = s.own ++ [⟨.report, sink, s.straps.station, (sent.head?.map (·.sequence)).getD 0,
          BitVec.ofNat 8 sent.length :: (sent.map noticeBytes).flatten, false⟩] ∧
        u.events = { s.events with report := some ⟨r.sends + 1, false⟩,
                                   timer := some s.cfg.active.params.retransmitTime } ∧
        u.store = s.store ∧ u.ports = s.ports ∧ u.mgmt = s.mgmt) ∧
     (8 ≤ s.slotsTaken → exec .deferredRetransmission s = .next (settle s))))

/-! ### Management: judging, sessions -/

/-- R134, R140, R142: how every request row other than OPEN is judged before it is carried out: renewal first; a bad length, no session and a tag out of
sequence are answered and not recorded; a repeated tag is answered from the replay copy; a wrong body length and a wrong mode are answered
and recorded. A request of a code the gate does not know, or too short for a code and flags, is judged by the same steps, and at the length step
answered BAD_REQUEST and recorded. -/
def Obligations.RequestsAreJudgedInOrder : Prop :=
  (∀ (s : State) (r : RequestHead) (code : Byte), s.resetHeld = false → r.source ≠ 0 → r.source ≠ 255 →
    (let t := s.renewLease r.source
     let refused (status : Status) (body : List Byte) (recorded : Bool) : Host.Outcome State Fault Refusal :=
       .next (settle (t.answer r code (reply status body) recorded))
     if r.length.toNat < 2 ∨ 128 < r.length.toNat then
       exec (.unknownRequestCode r code) s =
         .next (settle (t.answer r (if r.length = 0 then 0 else code) (reply .badRequest []) false))
     else
       match sessionOf s.mgmt.slots r.source with
       | none => exec (.unknownRequestCode r code) s = refused .noSession [] false
       | some x =>
         if r.tag = x.lastSequence then exec (.unknownRequestCode r code) s = .next (settle (t.respond r x.replay false))
         else if r.tag ≠ x.lastSequence + 1 then
           exec (.unknownRequestCode r code) s = refused .sequence (be16 (x.lastSequence + 1)) false
         else exec (.unknownRequestCode r code) s = refused .badRequest [] true)) ∧
  ∀ (s : State) (c : Instr) (q : RequestRow), requestRow c = some q → s.resetHeld = false →
    q.head.source ≠ 0 → q.head.source ≠ 255 →
    (let r := q.head
     let t := s.renewLease r.source
     let refused (status : Status) (body : List Byte) (recorded : Bool) : Host.Outcome State Fault Refusal :=
       .next (settle (t.answer r q.code (reply status body) recorded))
     if r.length.toNat < 2 ∨ 128 < r.length.toNat then
       exec c s = .next (settle (t.answer r (if r.length = 0 then 0 else q.code) (reply .badRequest []) false))
     else
       match sessionOf s.mgmt.slots r.source with
       | none => exec c s = refused .noSession [] false
       | some x =>
         if r.tag = x.lastSequence then exec c s = .next (settle (t.respond r x.replay false))
         else if r.tag ≠ x.lastSequence + 1 then exec c s = refused .sequence (be16 (x.lastSequence + 1)) false
         else if r.length.toNat ≠ q.bodyLength + 2 then exec c s = refused .badRequest [] true
         else (q.edit = true → x.mode = .observe → exec c s = refused .mode [] true))

/-- R134, R135: a request renews the lease of its station's session and of no other.
R141, R78, R134: the response frame and its fields; it joins the tail of the own queue where a slot is free, and is dropped and counted where none is;
it is recorded either way where it is one to record. -/
def Obligations.RenewalAndResponse : Prop :=
  (∀ (s : State) (station : Byte),
    (∀ i, (s.renewLease station).mgmt.slots.get i =
      (s.mgmt.slots.get i).map fun x => if x.station = station then { x with remaining := x.lease } else x) ∧
    { s.renewLease station with mgmt := s.mgmt } = s ∧
    (s.renewLease station).mgmt.restartPending = s.mgmt.restartPending) ∧
  (∀ (s : State) (r : RequestHead) (code : Byte) (status : Status) (body : List Byte) (recorded : Bool),
    let t := s.answer r code (reply status body) recorded
    let payload := code :: statusByte status :: body
    (s.slotsTaken < 8 →
      t.own = s.own ++ [⟨.response, r.source, s.straps.station, r.tag, payload, false⟩] ∧ t.ports = s.ports) ∧
    (8 ≤ s.slotsTaken →
      t.own = s.own ∧ (∀ q, q ≠ .t → t.ports.get q = s.ports.get q) ∧
        t.ports.t =
          { s.ports.t with count := { s.ports.t.count with txOwnDrop := s.ports.t.count.txOwnDrop + 1 } }) ∧
    (∀ i, t.mgmt.slots.get i =
      (s.mgmt.slots.get i).map fun x =>
        if recorded = true ∧ x.station = r.source then { x with lastSequence := r.tag, replay := payload } else x) ∧
    t.cfg = s.cfg ∧ t.clock = s.clock ∧ t.sync = s.sync ∧ t.store = s.store ∧ t.events = s.events ∧
    t.classifier = s.classifier ∧ t.mgmt.restartPending = s.mgmt.restartPending)

/-- R137, R138, R154: an OPEN that no refusal stops: an earlier session of the station ends, the new one takes the lowest free slot with the OPEN's response as
its replay copy, REPORT makes it the sink, and the response carries slot and lease. The sessions of the other stations stay as they are, but that
REPORT takes their sink flag. With REPORT, a new sink turns SENT notices back to UNSENT, and so does the sink's own station, whose session ends first;
without REPORT, an OPEN of the sink's own station clears the sink. -/
def Obligations.OpenStartsASession : Prop :=
  ∀ (s : State) (r : RequestHead) (mode : Byte) (lease : Half), s.resetHeld = false → s.SessionInv →
    r.source ≠ 0 → r.source ≠ 255 → r.length.toNat = 5 → mode.toNat ≤ 1 → 100 ≤ lease.toNat → lease.toNat ≤ 60000 →
    (mode = 1 → ∀ i x, s.mgmt.slots.get i = some x → x.mode = .edit → x.station = r.source) →
    ((∃ i x, s.mgmt.slots.get i = some x ∧ x.station = r.source) ∨ ∃ i, s.mgmt.slots.get i = none) →
    ∃ (t u : State) (k : Fin 4) (x : Session), exec (.openSession r mode lease) s = .next t ∧
      t = settle (u.answer r 0x01 (reply .ok (BitVec.ofNat 8 k.val :: be16 lease)) false) ∧
      u.own = s.own ∧ u.ports = s.ports ∧ u.store = s.store ∧ u.classifier = s.classifier ∧ u.sync = s.sync ∧
      u.mgmt = t.mgmt ∧ t.mgmt.restartPending = s.mgmt.restartPending ∧
      (∀ j y, s.mgmt.slots.get j = some y → y.station ≠ r.source →
        j ≠ k ∧ t.mgmt.slots.get j = some { y with sink := y.sink && !r.flags.getLsbD 0 }) ∧
      (∀ j, j ≠ k → (∀ y, s.mgmt.slots.get j = some y → y.station = r.source) → t.mgmt.slots.get j = none) ∧
      (let held := ∃ j y, s.mgmt.slots.get j = some y ∧ y.station = r.source ∧ y.sink = true
       let unsent : EventUnit :=
         if s.events.report = none then s.events
         else { s.events with queue := s.events.queue.map fun y => { y with sent := false }, report := none, timer := none }
       (r.flags.getLsbD 0 = true → s.events.sink ≠ some r.source ∨ held → u.events = { unsent with sink := some r.source }) ∧
       (r.flags.getLsbD 0 = false → held → u.events = { unsent with sink := none })) ∧
      (r.flags.getLsbD 0 = false → (∀ j y, s.mgmt.slots.get j = some y → y.station = r.source → y.sink = false) →
        u.events = s.events) ∧
      t.mgmt.slots.get k = some x ∧ x.station = r.source ∧ x.mode = (if mode = 1 then .edit else .observe) ∧
      x.lease = lease.toNat ∧ x.remaining = lease.toNat ∧ x.lastSequence = r.tag ∧
      x.replay = [0x01, 0x00, BitVec.ofNat 8 k.val] ++ be16 lease ∧ x.sink = r.flags.getLsbD 0 ∧
      (∀ j, j < k → ∃ y, s.mgmt.slots.get j = some y ∧ y.station ≠ r.source) ∧
      (∀ j y, j ≠ k → t.mgmt.slots.get j = some y →
        y.station ≠ r.source ∧ (r.flags.getLsbD 0 = true → y.sink = false) ∧
          ∃ z, s.mgmt.slots.get j = some z ∧ y.station = z.station ∧ y.mode = z.mode ∧ y.remaining = z.remaining) ∧
      (r.flags.getLsbD 0 = true → t.events.sink = some r.source) ∧ t.clock = s.clock ∧ t.cfg.active = s.cfg.active ∧
      t.cfg.armed = s.cfg.armed ∧ t.cfg.generation = s.cfg.generation

/-- R137, R134: the refusals of OPEN, in order, a length below 2 or above 128 first; none touches a session beyond the renewal, and none is
recorded. -/
def Obligations.OpenIsRefusedInOrder : Prop :=
  ∀ (s : State) (r : RequestHead) (mode : Byte) (lease : Half), s.resetHeld = false → s.SessionInv →
    r.source ≠ 0 → r.source ≠ 255 →
    (let refused (status : Status) (body : List Byte) : Host.Outcome State Fault Refusal :=
       .next (settle ((s.renewLease r.source).answer r 0x01 (reply status body) false))
     if r.length.toNat < 2 ∨ 128 < r.length.toNat then
       exec (.openSession r mode lease) s =
         .next (settle ((s.renewLease r.source).answer r (if r.length = 0 then 0 else 0x01) (reply .badRequest []) false))
     else if r.length.toNat ≠ 5 then exec (.openSession r mode lease) s = refused .badRequest []
     else if 1 < mode.toNat then exec (.openSession r mode lease) s = refused .range [1]
     else if lease.toNat < 100 ∨ 60000 < lease.toNat then exec (.openSession r mode lease) s = refused .range [2]
     else
       (∀ i x, mode = 1 → s.mgmt.slots.get i = some x → x.mode = .edit → x.station ≠ r.source →
         exec (.openSession r mode lease) s = refused .claimed [x.station]) ∧
       ((mode = 1 → ∀ i x, s.mgmt.slots.get i = some x → x.mode ≠ .edit) →
         (∀ i, ∃ x, s.mgmt.slots.get i = some x ∧ x.station ≠ r.source) →
         exec (.openSession r mode lease) s = refused .full []))

/-- R138, R60, R154: the end of a session: its slot is free, an EDIT session takes staged work that is not armed with it, and the sink it held is cleared with its
SENT notices back to UNSENT.
R135, R138: at the expiry of a lease the session ends, and then SESSION_EXPIRED is raised with the station; a lease with time left, as one just
renewed, does not expire (R136). That the row carries no time, so that the clock and the other leases stay, is the model's choice (log entry 4). -/
def Obligations.SessionEndAndLeaseExpiry : Prop :=
  (∀ (s : State) (i : Fin 4) (x : Session), s.mgmt.slots.get i = some x →
    let t := s.endSession i
    t.mgmt.slots.get i = none ∧ (∀ j, j ≠ i → t.mgmt.slots.get j = s.mgmt.slots.get j) ∧
    t.cfg = (if x.mode = .edit ∧ s.cfg.armed = none then { s.cfg with staged := s.cfg.active, edited := false } else s.cfg) ∧
    t.events =
      (if x.sink = true then
        if s.events.report = none then { s.events with sink := none }
        else { s.events with
               queue := s.events.queue.map fun y => { y with sent := false }, report := none, timer := none, sink := none }
       else s.events) ∧
    t.ports = s.ports ∧ t.mgmt.restartPending = s.mgmt.restartPending ∧ t.own = s.own ∧ t.store = s.store) ∧
  (∀ (s : State) (i : Fin 4) (x : Session), s.resetHeld = false → s.mgmt.slots.get i = some x →
    (x.remaining ≠ 0 → exec (.leaseExpiry i) s = .next (settle s)) ∧
    (x.remaining = 0 →
      ∃ u, exec (.leaseExpiry i) s = .next (settle u) ∧ u.mgmt.slots.get i = none ∧
        (∀ j, j ≠ i → u.mgmt.slots.get j = s.mgmt.slots.get j) ∧
        u.events =
          (s.endSession i).events.raise .sessionExpired none none s.clock.number (x.station.setWidth 32) ∧
        u.cfg = (s.endSession i).cfg ∧ u.ports = s.ports ∧ u.own = s.own ∧ u.clock = s.clock))

/-- R139 and R134: CLOSE ends the session and is recorded nowhere; RENEW does nothing beyond renewal and recording, and returns the lease; a request of a code the
gate does not know is answered BAD_REQUEST in turn. -/
def Obligations.CloseRenewAndUnknownCodes : Prop :=
  ∀ (s : State) (r : RequestHead) (x : Session),
    (s.InTurn r 0 x → s.SessionInv →
      ∃ i t, s.mgmt.slots.get i = some x ∧ exec (.closeSession r) s = .next t ∧ t.mgmt.slots.get i = none ∧
        (∀ j, j ≠ i → t.mgmt.slots.get j = s.mgmt.slots.get j) ∧
        exec (.closeSession r) s =
          .next (settle (((s.renewLease r.source).endSession i).answer r 0x02 (reply .ok []) true))) ∧
    (s.InTurn r 0 x → exec (.renew r) s = answered (s.renewLease r.source) r 0x03 .ok (be16 (BitVec.ofNat 16 x.lease))) ∧
    ∀ code n, s.InTurn r n x → n ≤ 126 →
      exec (.unknownRequestCode r code) s = answered (s.renewLease r.source) r code .badRequest []

/-! ### Management: READ -/

/-- R143, R63, R104, R161, 11.2: the ten READ objects in turn, each with the body the layout gives it, in either mode, changing nothing but the renewal and the
recording; and their RANGE and NOT_FOUND answers. A byte the manual gives no value is a free value (log entry 6), and a byte that says yes or no
is 1 or 0 (log entry 7). -/
def Obligations.ReadReturnsTheObject : Prop :=
  ∀ (s t : State) (r : RequestHead) (x : Session), t = s.renewLease r.source →
    (s.InTurn r 1 x →
      exec (.readIdentity r) s =
        answered t r 0x04 .ok ([0x0C, 0x05, s.straps.station, if s.straps.policy = .pass then 0 else 1, 5, 0x02, 0x00, 4, 0x01,
          0x00, 64]) ∧
      exec (.readCommit r) s =
        answered t r 0x04 .ok (be16 s.cfg.generation ++ be32 s.clock.number ++
          [if s.cfg.armed = none then 0 else 1] ++ be32 (s.cfg.armed.getD 0) ++ [if s.cfg.edited then 1 else 0]) ∧
      exec (.readSessions r) s = answered t r 0x04 .ok (t.mgmt.slots.toList.map slotBody).flatten ∧
      (∀ e, s.sync.lastError = some e → exec (.readSync r) s = answered t r 0x04 .ok (syncBody s)) ∧
      (s.sync.lastError = none → exec (.readSync r) s = answered (t.useFree 4) r 0x04 .ok (syncBody s)) ∧
      (∀ ms, s.events.timer = some ms → exec (.readEvents r) s = answered t r 0x04 .ok (eventsBody s)) ∧
      (s.events.timer = none → exec (.readEvents r) s = answered (t.useFree 1) r 0x04 .ok (eventsBody s))) ∧
    (s.InTurn r 2 x → ∀ copy port,
      exec (.readParams r copy) s =
        (if copy = 0 then answered t r 0x04 .ok (paramsBytes s.cfg.active.params)
         else if copy = 1 then answered t r 0x04 .ok (paramsBytes s.cfg.staged.params)
         else answered t r 0x04 .range []) ∧
      exec (.readPort r port) s =
        match portOf port with
        | none => answered t r 0x04 .range []
        | some p =>
          answered (if p ≠ .t ∧ (s.ports.get p).drain = none then t.useFree 8 else t) r 0x04 .ok (portBody s p)) ∧
    (s.InTurn r 3 x → ∀ stream : Half,
      exec (.readStreamCounters r stream) s =
        if stream.toNat = 0 ∨ 4095 < stream.toNat then answered t r 0x04 .range []
        else
          match streamRecord s.classifier.records (stream.setWidth 12) with
          | none => answered t r 0x04 .notFound []
          | some c =>
            answered t r 0x04 .ok (be16 (c.stream.setWidth 16) ++ be32 c.received ++ be32 c.forwarded ++ be32 c.policed ++
              be32 c.oversize ++ be32 c.noQueue ++ be32 c.late)) ∧
    (s.InTurn r 4 x → ∀ (copy port index : Byte) (stream : Half),
      (1 < copy.toNat → exec (.readStream r copy stream) s = answered t r 0x04 .range [] ∧
        exec (.readWindow r copy port index) s = answered t r 0x04 .range []) ∧
      (copy.toNat ≤ 1 →
        let c := if copy = 0 then s.cfg.active else s.cfg.staged
        exec (.readStream r copy stream) s =
          (if stream.toNat = 0 ∨ 4095 < stream.toNat then answered t r 0x04 .range []
           else
             match streamEntry c (stream.setWidth 12) with
             | none => answered t r 0x04 .notFound []
             | some e => answered t r 0x04 .ok (streamBytes e)) ∧
        exec (.readWindow r copy port index) s =
          match portOf port with
          | none => answered t r 0x04 .range []
          | some p =>
            match (portWindows c p)[index.toNat]? with
            | none => answered t r 0x04 .notFound []
            | some w => answered t r 0x04 .ok (windowBytes w)))

/-! ### Management: ACK, staging, commit, abort -/

/-- R158: an ACK that covers an UNSENT notice or lies beyond last assigned is refused and changes nothing; any other removes the SENT notices it covers, and ends the
report where none remains. -/
def Obligations.AckRemovesCoveredNotices : Prop :=
  ∀ (s : State) (r : RequestHead) (x : Session) (n : Half), s.InTurn r 2 x →
    (let e := s.events
     let t := s.renewLease r.source
     let outside := (∃ y ∈ e.queue, y.sent = false ∧ later y.notice.sequence n = false) ∨ later n e.lastAssigned = true
     (outside →
       exec (.ack r n) s =
         answered t r 0x05 .range
           ((if e.report = none then 0 else 1) ::
             be16 ((((e.queue.filter (·.sent)).map (·.notice)).getLast?.map (·.sequence)).getD 0))) ∧
     (¬outside →
       let stays := e.queue.filter fun y => !(y.sent && !later y.notice.sequence n)
       exec (.ack r n) s =
         answered
           (t.setEvents
             (if (∃ y ∈ stays, y.sent = true) then { e with queue := stays }
              else { e with queue := stays, report := none, timer := none }))
           r 0x05 .ok [BitVec.ofNat 8 (e.queue.length - stays.length)]))

/-- R45, R53, R142: while a commit is armed every staging request of an EDIT session is refused with BUSY_ARMED, and no staging request changes anything of the
configuration unit but the staged copy and the edited mark. -/
def Obligations.StagingIsRefusedWhileArmed : Prop :=
  ∀ (s : State) (c : Instr) (q : RequestRow) (x : Session), requestRow c = some q →
    (q.code = 0x10 ∨ q.code = 0x11 ∨ q.code = 0x12) → s.EditTurn q.head q.bodyLength x →
    (s.cfg.armed ≠ none → exec c s = answered (s.renewLease q.head.source) q.head q.code .busyArmed []) ∧
    ∀ t, exec c s = .next t →
      t.cfg.active = s.cfg.active ∧ t.cfg.generation = s.cfg.generation ∧ t.cfg.armed = s.cfg.armed ∧
        (t.cfg = s.cfg ∨ t.cfg.edited = true)

/-- R46: STAGE_STREAM PUT: the first field out of range, the shape and the capacity in order; else the entry is in the staged table, in place of one of its number, and
no other is touched. -/
def Obligations.StageStreamPutAddsTheEntry : Prop :=
  ∀ (s : State) (r : RequestHead) (x : Session) (b : StreamBody), s.EditTurn r 11 x → s.cfg.armed = none →
    (let t := s.renewLease r.source
     let known := 1 ≤ b.stream.toNat ∧ b.stream.toNat ≤ 4095
     let egress := portSetOf b.egress
     let exists' := ∃ e ∈ s.cfg.staged.streams, e.stream.toNat = b.stream.toNat
     if ¬known then exec (.stageStreamPut r b) s = answered t r 0x10 .range [1]
     else
       match portOf b.ingress with
       | none => exec (.stageStreamPut r b) s = answered t r 0x10 .range [2]
       | some ingress =>
         if 32 ≤ b.egress.toNat then exec (.stageStreamPut r b) s = answered t r 0x10 .range [3]
         else if 4 ≤ b.cls.toNat then exec (.stageStreamPut r b) s = answered t r 0x10 .range [4]
         else if 1024 < b.maxPayload.toNat then exec (.stageStreamPut r b) s = answered t r 0x10 .range [5]
         else if b.lifetime.toNat = 0 ∨ 16 < b.lifetime.toNat then
           exec (.stageStreamPut r b) s = answered t r 0x10 .range [7]
         else if 8 ≤ b.report.toNat then exec (.stageStreamPut r b) s = answered t r 0x10 .range [8]
         else if egress = PerPort.fill false then
           exec (.stageStreamPut r b) s = answered t r 0x10 .invalid [1, 0, 0, 0, 0]
         else if egress.get ingress = true then
           exec (.stageStreamPut r b) s = answered t r 0x10 .invalid [2, 0, 0, 0, 0]
         else if ¬exists' ∧ 256 ≤ s.cfg.staged.streams.length then
           exec (.stageStreamPut r b) s = answered t r 0x10 .tableFull []
         else
           ∃ c : Configuration,
             exec (.stageStreamPut r b) s = answered (t.setCfg { s.cfg with staged := c, edited := true }) r 0x10 .ok [] ∧
             c.windows = s.cfg.staged.windows ∧ c.params = s.cfg.staged.params ∧
             streamEntry c (b.stream.setWidth 12) =
               some ⟨b.stream.setWidth 12, ingress, egress, Fin.ofNat 4 b.cls.toNat, b.maxPayload.toNat, b.budget.toNat,
                 b.lifetime.toNat, reportSetOf b.report⟩ ∧
             ∀ n : StreamNo, n ≠ b.stream.setWidth 12 → streamEntry c n = streamEntry s.cfg.staged n)

/-- R47: STAGE_STREAM DELETE: RANGE, NOT_FOUND, or the entry is gone from the staged table; the active table, the windows and the run-time records are not
touched. -/
def Obligations.StageStreamDeleteRemovesTheEntry : Prop :=
  ∀ (s : State) (r : RequestHead) (x : Session) (stream : Half), s.EditTurn r 3 x → s.cfg.armed = none →
    (let t := s.renewLease r.source
     if stream.toNat = 0 ∨ 4095 < stream.toNat then exec (.stageStreamDelete r stream) s = answered t r 0x10 .range [1]
     else if streamEntry s.cfg.staged (stream.setWidth 12) = none then
       exec (.stageStreamDelete r stream) s = answered t r 0x10 .notFound []
     else
       ∃ c : Configuration,
         exec (.stageStreamDelete r stream) s = answered (t.setCfg { s.cfg with staged := c, edited := true }) r 0x10 .ok [] ∧
         c.windows = s.cfg.staged.windows ∧ c.params = s.cfg.staged.params ∧
         streamEntry c (stream.setWidth 12) = none ∧
         ∀ n : StreamNo, n ≠ stream.setWidth 12 → streamEntry c n = streamEntry s.cfg.staged n)

/-- R48 whole: STAGE_WINDOW PUT: range by field, shape, overlap with the first overlapping window in start order, capacity; else the window is in the staged schedule, in place
of one of its key, and no other is touched. -/
def Obligations.StageWindowPutAddsTheWindow : Prop :=
  ∀ (s : State) (r : RequestHead) (x : Session) (b : WindowBody), s.EditTurn r 11 x → s.cfg.armed = none →
    (let t := s.renewLease r.source
     let stop := b.start.toNat + b.length.toNat
     let classes := classSetOf b.classes
     match portOf b.port with
     | none => exec (.stageWindowPut r b) s = answered t r 0x11 .range [1]
     | some p =>
       let others := (portWindows s.cfg.staged p).filter fun v => v.start ≠ b.start.toNat
       let overlapping := others.filter fun v =>
         (v.start ≤ b.start.toNat && b.start.toNat < v.start + v.length) || (b.start.toNat ≤ v.start && v.start < stop)
       if 12499992 < stop then exec (.stageWindowPut r b) s = answered t r 0x11 .range [3]
       else if 16 ≤ b.classes.toNat then exec (.stageWindowPut r b) s = answered t r 0x11 .range [4]
       else if b.length.toNat < 32 then exec (.stageWindowPut r b) s = answered t r 0x11 .invalid [3, 0, 0, 0, 0]
       else if classes = Quad.fill false then exec (.stageWindowPut r b) s = answered t r 0x11 .invalid [4, 0, 0, 0, 0]
       else if p ≠ .t ∧ b.start.toNat < 32 then exec (.stageWindowPut r b) s = answered t r 0x11 .invalid [5, 0, 0, 0, 0]
       else
         match overlapping with
         | v :: _ => exec (.stageWindowPut r b) s = answered t r 0x11 .invalid (6 :: be32 (BitVec.ofNat 32 v.start))
         | [] =>
           if (∀ v ∈ s.cfg.staged.windows, ¬(v.port = p ∧ v.start = b.start.toNat)) ∧ 64 ≤ s.cfg.staged.windows.length then
             exec (.stageWindowPut r b) s = answered t r 0x11 .tableFull []
           else
             ∃ c : Configuration,
               exec (.stageWindowPut r b) s = answered (t.setCfg { s.cfg with staged := c, edited := true }) r 0x11 .ok [] ∧
               c.streams = s.cfg.staged.streams ∧ c.params = s.cfg.staged.params ∧
               (s.ConfigInv → ∀ v, v ∈ c.windows ↔
                 v = ⟨p, b.start.toNat, b.length.toNat, classes⟩ ∨
                   (v ∈ s.cfg.staged.windows ∧ ¬(v.port = p ∧ v.start = b.start.toNat))))

/-- R49 whole: STAGE_WINDOW DELETE and CLEAR_PORT: RANGE for no port, NOT_FOUND for no key, else the window of the key, or every window of the port, is gone; CLEAR_PORT
answers how many, and sets the edited mark even for none. -/
def Obligations.StageWindowDeleteAndClearPort : Prop :=
  ∀ (s : State) (r : RequestHead) (x : Session) (port : Byte), s.cfg.armed = none →
    (let t := s.renewLease r.source
     let staged (ws : List Window) : State :=
       t.setCfg { s.cfg with staged := { s.cfg.staged with windows := ws }, edited := true }
     (s.EditTurn r 6 x → ∀ start : Word,
       match portOf port with
       | none => exec (.stageWindowDelete r port start) s = answered t r 0x11 .range [1]
       | some p =>
         let kept := s.cfg.staged.windows.filter fun w => !(decide (w.port = p) && decide (w.start = start.toNat))
         if (∀ w ∈ s.cfg.staged.windows, ¬(w.port = p ∧ w.start = start.toNat)) then
           exec (.stageWindowDelete r port start) s = answered t r 0x11 .notFound []
         else exec (.stageWindowDelete r port start) s = answered (staged kept) r 0x11 .ok []) ∧
     (s.EditTurn r 2 x →
       match portOf port with
       | none => exec (.stageWindowClearPort r port) s = answered t r 0x11 .range [1]
       | some p =>
         exec (.stageWindowClearPort r port) s =
           answered (staged (s.cfg.staged.windows.filter fun w => w.port ≠ p)) r 0x11 .ok
             [BitVec.ofNat 8 (portWindows s.cfg.staged p).length]))

/-- R50 whole: STAGE_PARAMS: the first parameter out of its range of R42 refuses all; else those carried are written together, those not carried stay, and the edited mark is
set even where none is carried. -/
def Obligations.StageParamsWritesAllOrNone : Prop :=
  ∀ (s : State) (r : RequestHead) (x : Session) (b : ParamsBody), s.EditTurn r (paramsBodySize b) x → s.cfg.armed = none →
    (let t := s.renewLease r.source
     let p := s.cfg.staged.params
     let refused (n : Byte) := exec (.stageParams r b) s = answered t r 0x12 .range [n]
     let outside {w : Nat} (v : Option (BitVec w)) (low high : Nat) : Prop := ∃ y, v = some y ∧ ¬(low ≤ y.toNat ∧ y.toNat ≤ high)
     let value {w : Nat} (v : Option (BitVec w)) (old new : Nat) : Prop :=
       (v = none → new = old) ∧ ∀ y, v = some y → new = y.toNat
     (outside b.cycleLength 1250 12500000 → refused 1) ∧
     (¬outside b.cycleLength 1250 12500000 →
      (outside b.syncOffset 0 12499999 → refused 2) ∧
      (¬outside b.syncOffset 0 12499999 →
       (outside b.halfWidth 16 4096 → refused 3) ∧
       (¬outside b.halfWidth 16 4096 →
        (outside b.lockTolerance 1 64 → refused 4) ∧
        (¬outside b.lockTolerance 1 64 →
         (outside b.stepThreshold 2 4095 → refused 5) ∧
         (¬outside b.stepThreshold 2 4095 →
          (outside b.holdoverLimit 1 255 → refused 6) ∧
          (¬outside b.holdoverLimit 1 255 →
           (outside b.policy 0 1 → refused 7) ∧
           (¬outside b.policy 0 1 →
            (outside b.retransmitTime 1 255 → refused 8) ∧
            (¬outside b.retransmitTime 1 255 →
              ∃ q : Params,
                exec (.stageParams r b) s =
                  answered (t.setCfg { s.cfg with staged := { s.cfg.staged with params := q }, edited := true }) r 0x12 .ok [] ∧
                value b.cycleLength p.cycleLength q.cycleLength ∧ value b.syncOffset p.syncOffset q.syncOffset ∧
                value b.halfWidth p.halfWidth q.halfWidth ∧ value b.lockTolerance p.lockTolerance q.lockTolerance ∧
                value b.stepThreshold p.stepThreshold q.stepThreshold ∧
                value b.holdoverLimit p.holdoverLimit q.holdoverLimit ∧
                value b.retransmitTime p.retransmitTime q.retransmitTime ∧
                (b.policy = none → q.policy = p.policy) ∧ (b.policy = some 0 → q.policy = .pass) ∧
                (b.policy = some 1 → q.policy = .block))))))))))

/-- R52: validation passes a configuration exactly when the six checks hold of it, and otherwise names the first that fails, with its offender: for check 1 the
first window by port and index that ends too late; for checks 5 and 6 the first stream of the table, and the first port of its egress set, that no window
serves; for the others none. -/
def Obligations.ValidationPassesExactlyTheSixChecks : Prop :=
  ∀ c : Configuration,
    let q := c.params
    let serves (e : StreamEntry) (p : Port) (n : Nat) := ∃ w ∈ c.windows, w.port = p ∧ w.classes.get e.cls = true ∧ n ≤ w.length
    let ends := ∀ w ∈ c.windows, w.start + w.length + 8 ≤ q.cycleLength
    let sync := q.halfWidth ≤ q.syncOffset ∧ q.syncOffset + q.halfWidth + 32 + 8 ≤ q.cycleLength
    let tolerances := q.lockTolerance < q.stepThreshold ∧ q.stepThreshold < q.halfWidth
    let trunk := ∃ w ∈ c.windows, w.port = .t ∧ w.classes.get 0 = true ∧ 152 ≤ w.length
    let classes := ∀ e ∈ c.streams, ∀ p, e.egress.get p = true → serves e p 0
    let lengths := ∀ e ∈ c.streams, ∀ p, e.egress.get p = true → serves e p (e.maxPayload + 24)
    (validate c = none ↔ ends ∧ sync ∧ tolerances ∧ trunk ∧ classes ∧ lengths) ∧
    ∀ o, validate c = some o →
      ((o.check = 1 ∧ ¬ends) ∨ (o.check = 2 ∧ ends ∧ ¬sync) ∨ (o.check = 3 ∧ ends ∧ sync ∧ ¬tolerances) ∨
        (o.check = 4 ∧ ends ∧ sync ∧ tolerances ∧ ¬trunk) ∨ (o.check = 5 ∧ ends ∧ sync ∧ tolerances ∧ trunk ∧ ¬classes) ∨
        (o.check = 6 ∧ ends ∧ sync ∧ tolerances ∧ trunk ∧ classes ∧ ¬lengths)) ∧
      (let inTime (w : Window) := w.start + w.length + 8 ≤ q.cycleLength
       let ahead (a b : Port) := (portCode a).toNat < (portCode b).toNat
       let windowsOf (p : Port) := c.windows.filter fun w => w.port = p
       (o.check = 1 →
         ∃ p i w, o = ⟨1, none, some p, some i⟩ ∧ (windowsOf p)[i]? = some w ∧ ¬inTime w ∧
           (∀ j v, j < i → (windowsOf p)[j]? = some v → inTime v) ∧ ∀ v ∈ c.windows, ahead v.port p → inTime v) ∧
       (o.check = 2 ∨ o.check = 3 ∨ o.check = 4 → o = ⟨o.check, none, none, none⟩) ∧
       (o.check = 5 ∨ o.check = 6 →
         let need (e : StreamEntry) := if o.check = 5 then 0 else e.maxPayload + 24
         ∃ before e behind p, o = ⟨o.check, some e.stream, some p, none⟩ ∧ c.streams = before ++ e :: behind ∧
           e.egress.get p = true ∧ ¬serves e p (need e) ∧
           (∀ v, ahead v p → e.egress.get v = true → serves e v (need e)) ∧
           ∀ x ∈ before, ∀ v, x.egress.get v = true → serves x v (need x)))

/-- R51, R53: COMMIT: BUSY_ARMED while armed; the target 0 or one later by 1 to 1,024, RANGE for any other; INVALID with the first failing check; else the resolved target is
armed and the response carries it with the generation to be replaced. -/
def Obligations.CommitArmsAValidPendingCopy : Prop :=
  ∀ (s : State) (r : RequestHead) (x : Session) (target : Word), s.EditTurn r 4 x →
    (let t := s.renewLease r.source
     let now := s.clock.number
     let resolved := if target = 0 then now + 1 else target
     if s.cfg.armed ≠ none then exec (.commit r target) s = answered t r 0x13 .busyArmed []
     else if target ≠ 0 ∧ ((target - now).toNat = 0 ∨ 1024 < (target - now).toNat) then
       exec (.commit r target) s = answered t r 0x13 .range (be32 now)
     else
       match validate s.cfg.staged with
       | some o =>
         exec (.commit r target) s =
           answered t r 0x13 .invalid ([BitVec.ofNat 8 o.check] ++ be16 ((o.stream.map (·.setWidth 16)).getD 0) ++
             [(o.port.map portCode).getD 0xFF, (o.index.map (BitVec.ofNat 8)).getD 0xFF])
       | none =>
         exec (.commit r target) s =
           answered (t.setCfg { s.cfg with armed := some resolved }) r 0x13 .armed (be32 resolved ++ be16 s.cfg.generation))

/-- R58 whole: ABORT is refused with MODE from an OBSERVE session; from the EDIT session it is judged in the order of its steps, whether or not a commit is
armed; it raises no notice. -/
def Obligations.AbortAnswersByGeneration : Prop :=
  ∀ (s : State) (r : RequestHead) (x : Session) (option : Byte) (expected : Half), s.InTurn r 3 x →
    (let t := s.renewLease r.source
     let after (armed : Option Word) :=
       if option = 1 then { s.cfg with staged := s.cfg.active, armed := armed, edited := false }
       else { s.cfg with armed := armed }
     if x.mode = .observe then exec (.abort r option expected) s = answered t r 0x14 .mode []
     else if option ≠ 0 ∧ option ≠ 1 then exec (.abort r option expected) s = answered t r 0x14 .range []
     else if expected ≠ s.cfg.generation then
       exec (.abort r option expected) s = answered t r 0x14 .tooLate (be16 s.cfg.generation)
     else
       match s.cfg.armed with
       | some target => exec (.abort r option expected) s = answered (t.setCfg (after none)) r 0x14 .disarmed (be32 target)
       | none => exec (.abort r option expected) s = answered (t.setCfg (after none)) r 0x14 .ok [])

/-! ### Management: drains, counters, restart -/

/-- R124, R126: DRAIN in the order of its steps: RANGE, PORT_STATE for T and for a port that is not OPEN, else DRAINING with its record, with FLUSH the queues flushed and counted,
and at once DRAINED with DRAIN_DONE where the port is idle and empty.
R129: RESUME: RANGE, PORT_STATE for an OPEN port, else OPEN with the record gone and nothing else of the port touched; no notice is raised. -/
def Obligations.DrainAndResume : Prop :=
  (∀ (s : State) (r : RequestHead) (x : Session) (port option : Byte), s.EditTurn r 2 x →
    (let t := s.renewLease r.source
     match portOf port with
     | none => exec (.drain r port option) s = answered t r 0x20 .range []
     | some p =>
       let v := s.ports.get p
       if 1 < option.toNat then exec (.drain r port option) s = answered t r 0x20 .range []
       else if p = .t ∨ v.admin ≠ .opened then
         exec (.drain r port option) s = answered t r 0x20 .portState [adminByte v.admin, linkByte v.link]
       else
         let flush := option = 0
         let flushed := if flush then v.queued else 0
         let done := v.tx = .idle ∧ (flush ∨ ∀ c, v.queues.get c = [])
         ∃ u, exec (.drain r port option) s =
             answered u r 0x20 .ok ([port, if done then 2 else 1] ++ be32 (BitVec.ofNat 32 flushed)) ∧
           u.ports.get p =
             { v with
               queues := if flush then Quad.fill [] else v.queues
               count := { v.count with txFlushed := v.count.txFlushed + BitVec.ofNat 32 flushed }
               admin := if done then .drained else .draining
               drain := if done then none
                 else some ⟨if flush then .flush else .empty, s.clock.number, flushed⟩ } ∧
           (∀ q, q ≠ p → u.ports.get q = s.ports.get q) ∧
           u.events =
             (if done then
               s.events.raise .drainDone (some p) none s.clock.number (BitVec.ofNat 24 flushed |>.setWidth 32)
              else s.events) ∧
           u.own = s.own ∧ u.cfg = s.cfg ∧ u.clock = s.clock ∧ u.mgmt = t.mgmt)) ∧
  (∀ (s : State) (r : RequestHead) (x : Session) (port : Byte), s.EditTurn r 1 x →
    (let t := s.renewLease r.source
     match portOf port with
     | none => exec (.resume r port) s = answered t r 0x21 .range []
     | some p =>
       let v := s.ports.get p
       if v.admin = .opened then exec (.resume r port) s = answered t r 0x21 .portState [0, linkByte v.link]
       else
         exec (.resume r port) s =
           answered (t.onPort p fun v => { v with admin := .opened, drain := none }) r 0x21 .ok
             [port, adminByte v.admin, BitVec.ofNat 8 v.queued]))

/-- R144: CLEAR_COUNTERS sets every counter to 0 and leaves budgets, policed counts, marks, queues, the sync record, the configuration and the events.
R145: RESTART sets the pending-restart mark; the first one's response is marked as the restart response and joins the own queue, or, where no slot is free, is dropped and the
warm restart is carried out at that instant; while the mark is set the response is an ordinary one. -/
def Obligations.ClearCountersAndRestart : Prop :=
  (∀ (s : State) (r : RequestHead) (x : Session), s.EditTurn r 0 x →
    ∃ u, exec (.clearCounters r) s = answered u r 0x22 .ok [] ∧ u.trunkCount = .zero ∧
      u.classifier.unknownMarks = s.classifier.unknownMarks ∧
      u.classifier.records =
        s.classifier.records.map (fun y =>
          ⟨y.stream, y.budgetRemaining, y.policedNow, 0, 0, 0, 0, 0, 0, y.policedMark, y.oversizeMark, y.lateMark⟩) ∧
      (∀ p, u.ports.get p = { s.ports.get p with count := .zero }) ∧
      { u with trunkCount := s.trunkCount, classifier := s.classifier, ports := s.ports } = s.renewLease r.source) ∧
  (∀ (s : State) (r : RequestHead) (x : Session), s.EditTurn r 0 x →
    (let t := s.renewLease r.source
     (s.mgmt.restartPending = true → exec (.restart r) s = answered t r 0x23 .ok []) ∧
     (s.mgmt.restartPending = false → s.slotsTaken < 8 →
       ∃ u, exec (.restart r) s = .next (settle u) ∧ u.mgmt.restartPending = true ∧
         u.own = s.own ++ [⟨.response, r.source, s.straps.station, r.tag, [0x23, 0x00], true⟩] ∧ u.ports = s.ports ∧
         u.cfg = s.cfg ∧ u.events = s.events ∧ u.clock = s.clock ∧
         ∀ i, u.mgmt.slots.get i = (t.mgmt.slots.get i).map fun y =>
           if y.station = r.source then { y with lastSequence := r.tag, replay := [0x23, 0x00] } else y) ∧
     (s.mgmt.restartPending = false → 8 ≤ s.slotsTaken →
       ∃ u, exec (.restart r) s = .next u ∧ u.mgmt.restartPending = false ∧ (∀ i, u.mgmt.slots.get i = none) ∧
         u.own = [] ∧ u.clock = s.clock ∧ u.cfg = { s.cfg with staged := s.cfg.active, armed := none, edited := false })))

/-! ### What every step keeps -/

/-- R99: LOCK is high exactly while the gate enforces, and low in reset.
R85, R91: the counts go with the sync state. -/
def Obligations.EveryStepKeepsLockAndSyncRecord : Prop :=
  (KeptByStep State.LockInv) ∧
  (KeptByStep State.SyncInv)

/-- R133: at most four sessions, at most one in EDIT mode, no station with two, and every record in range.
R43: with no EDIT session and nothing armed, the staged copy equals the active one and the edited mark is clear. -/
def Obligations.EveryStepKeepsSessionsAndStaging : Prop :=
  (KeptByStep State.SessionInv) ∧
  (KeptByStep State.StagedInv)

/-- R2, R22, R23, R42, R52, R53: both copies stay within the limits of staging; what is armed, and what is active from generation 1 on, passes validation.
R24, R25: the run-time records are those of the active entries, and no budget remaining exceeds its budget. -/
def Obligations.EveryStepKeepsConfigurationAndRecords : Prop :=
  (KeptByStep State.ConfigInv) ∧
  (KeptByStep fun s => s.ConfigInv ∧ s.RecordInv)

/-- R64: free blocks, blocks held by receptions, and blocks of stored frames always add up to 512. -/
def Obligations.EveryStepKeepsThePool : Prop := KeptByStep State.PoolInv

/-- R69, R77, R151: no class queue above 32 descriptors and each of its own class, no more than eight own frames, and no more than 31 ordinary notices and one OVERFLOW.
R151, R156: SENT notices are the oldest, at most eight; a report is outstanding exactly while there are some, with a send count of one to four. -/
def Obligations.EveryStepKeepsQueuesAndReport : Prop :=
  (KeptByStep State.QueueInv) ∧
  (KeptByStep State.NoticeInv)

/-- R67: the reference count of a stored frame is the number of descriptors that refer to it, queued and in flight, at least one; and every descriptor refers to a stored
frame. -/
def Obligations.EveryStepKeepsTheReferences : Prop := KeptByStep State.RefInv

/-- R121, R126: T is OPEN, a drain record exists exactly while DRAINING, and no port stays DRAINING once it is idle and empty.
R117, R122: a port that is DOWN receives nothing, sends nothing and queues no data frame. -/
def Obligations.EveryStepKeepsDrainsAndDownPorts : Prop :=
  (KeptByStep State.DrainInv) ∧
  (KeptByStep State.LinkInv)

/-- R43, R44: the active configuration and the generation change only at a release of RESET_N and at a natural cycle start that a due commit reaches. -/
def Obligations.OnlyASwapChangesTheActiveConfiguration : Prop :=
  ∀ (c : Instr) (s t : State), exec c s = .next t →
    (∀ straps high links, c ≠ .resetRelease straps high links) →
    (t.cfg.active = s.cfg.active ∧ t.cfg.generation = s.cfg.generation) ∨
      ((c = .naturalCycleStart ∨ c = .swap) ∧ swapDue s.cfg (s.clock.number + 1) = true)
end

