-- ==== Sys2Proof/Laws/State.lean ====
section
/-! SUPPORT. One lemma per field for each update of State, and the laws of `PerPort` and `Quad`. -/

namespace Sys2Proof

/-! ### PerPort and Quad -/

@[simp] theorem PerPort.get_set {α : Type} (x : PerPort α) (p q : Port) (a : α) :
    (x.set p a).get q = if q = p then a else x.get q := by cases p <;> cases q <;> rfl

@[simp] theorem PerPort.get_fill {α : Type} (a : α) (p : Port) : (PerPort.fill a).get p = a := by cases p <;> rfl

@[simp] theorem PerPort.get_map {α β : Type} (f : α → β) (x : PerPort α) (p : Port) :
    (x.map f).get p = f (x.get p) := by cases p <;> rfl

theorem PerPort.ext_get {α : Type} {x y : PerPort α} (h : ∀ p, x.get p = y.get p) : x = y :=
  PerPort.ext (h .t) (h .b0) (h .b1) (h .b2) (h .b3)

@[simp] theorem PerPort.set_get {α : Type} (x : PerPort α) (p : Port) : x.set p (x.get p) = x := by cases p <;> rfl

theorem PerPort.set_set {α : Type} (x : PerPort α) (p : Port) (a b : α) : (x.set p a).set p b = x.set p b := by
  cases p <;> rfl

@[simp] theorem Quad.get_set {α : Type} (x : Quad α) (i j : Fin 4) (a : α) :
    (x.set i a).get j = if j = i then a else x.get j := by
  fin_cases i <;> fin_cases j <;> rfl

@[simp] theorem Quad.get_fill {α : Type} (a : α) (i : Fin 4) : (Quad.fill a).get i = a := by fin_cases i <;> rfl

@[simp] theorem Quad.get_map {α β : Type} (f : α → β) (x : Quad α) (i : Fin 4) :
    (x.map f).get i = f (x.get i) := by fin_cases i <;> rfl

theorem Quad.ext_get {α : Type} {x y : Quad α} (h : ∀ i, x.get i = y.get i) : x = y :=
  Quad.ext (h 0) (h 1) (h 2) (h 3)

theorem Quad.mem_toList {α : Type} {x : Quad α} {a : α} : a ∈ x.toList ↔ ∃ i, x.get i = a := by
  constructor
  · intro h
    simp only [Quad.toList, List.mem_cons, List.not_mem_nil, or_false] at h
    rcases h with h | h | h | h
    · exact ⟨0, h.symm⟩
    · exact ⟨1, h.symm⟩
    · exact ⟨2, h.symm⟩
    · exact ⟨3, h.symm⟩
  · rintro ⟨i, rfl⟩
    fin_cases i <;> simp [Quad.toList, Quad.get]

theorem Port.mem_all (p : Port) : p ∈ Port.all := by cases p <;> decide

namespace Machine

variable (s : State)

/-! ### onPort -/

@[simp] theorem State.onPort_resetHeld (p : Port) (f : PortUnit → PortUnit) : (s.onPort p f).resetHeld = s.resetHeld := rfl
@[simp] theorem State.onPort_lock (p : Port) (f : PortUnit → PortUnit) : (s.onPort p f).lock = s.lock := rfl
@[simp] theorem State.onPort_straps (p : Port) (f : PortUnit → PortUnit) : (s.onPort p f).straps = s.straps := rfl
@[simp] theorem State.onPort_clock (p : Port) (f : PortUnit → PortUnit) : (s.onPort p f).clock = s.clock := rfl
@[simp] theorem State.onPort_sync (p : Port) (f : PortUnit → PortUnit) : (s.onPort p f).sync = s.sync := rfl
@[simp] theorem State.onPort_trunkCount (p : Port) (f : PortUnit → PortUnit) : (s.onPort p f).trunkCount = s.trunkCount := rfl
@[simp] theorem State.onPort_cfg (p : Port) (f : PortUnit → PortUnit) : (s.onPort p f).cfg = s.cfg := rfl
@[simp] theorem State.onPort_classifier (p : Port) (f : PortUnit → PortUnit) : (s.onPort p f).classifier = s.classifier := rfl
@[simp] theorem State.onPort_ports (p : Port) (f : PortUnit → PortUnit) : (s.onPort p f).ports = s.ports.set p (f (s.ports.get p)) := rfl
@[simp] theorem State.onPort_store (p : Port) (f : PortUnit → PortUnit) : (s.onPort p f).store = s.store := rfl
@[simp] theorem State.onPort_own (p : Port) (f : PortUnit → PortUnit) : (s.onPort p f).own = s.own := rfl
@[simp] theorem State.onPort_control (p : Port) (f : PortUnit → PortUnit) : (s.onPort p f).control = s.control := rfl
@[simp] theorem State.onPort_mgmt (p : Port) (f : PortUnit → PortUnit) : (s.onPort p f).mgmt = s.mgmt := rfl
@[simp] theorem State.onPort_events (p : Port) (f : PortUnit → PortUnit) : (s.onPort p f).events = s.events := rfl
@[simp] theorem State.onPort_aux (p : Port) (f : PortUnit → PortUnit) : (s.onPort p f).aux = s.aux := rfl
@[simp] theorem State.onPort_pending (p : Port) (f : PortUnit → PortUnit) : (s.onPort p f).pending = s.pending := rfl

/-! ### onCount -/

@[simp] theorem State.onCount_resetHeld (p : Port) (f : PortCounters → PortCounters) : (s.onCount p f).resetHeld = s.resetHeld := rfl
@[simp] theorem State.onCount_lock (p : Port) (f : PortCounters → PortCounters) : (s.onCount p f).lock = s.lock := rfl
@[simp] theorem State.onCount_straps (p : Port) (f : PortCounters → PortCounters) : (s.onCount p f).straps = s.straps := rfl
@[simp] theorem State.onCount_clock (p : Port) (f : PortCounters → PortCounters) : (s.onCount p f).clock = s.clock := rfl
@[simp] theorem State.onCount_sync (p : Port) (f : PortCounters → PortCounters) : (s.onCount p f).sync = s.sync := rfl
@[simp] theorem State.onCount_trunkCount (p : Port) (f : PortCounters → PortCounters) : (s.onCount p f).trunkCount = s.trunkCount := rfl
@[simp] theorem State.onCount_cfg (p : Port) (f : PortCounters → PortCounters) : (s.onCount p f).cfg = s.cfg := rfl
@[simp] theorem State.onCount_classifier (p : Port) (f : PortCounters → PortCounters) : (s.onCount p f).classifier = s.classifier := rfl
@[simp] theorem State.onCount_ports (p : Port) (f : PortCounters → PortCounters) : (s.onCount p f).ports = s.ports.set p { s.ports.get p with count := f (s.ports.get p).count } := rfl
@[simp] theorem State.onCount_store (p : Port) (f : PortCounters → PortCounters) : (s.onCount p f).store = s.store := rfl
@[simp] theorem State.onCount_own (p : Port) (f : PortCounters → PortCounters) : (s.onCount p f).own = s.own := rfl
@[simp] theorem State.onCount_control (p : Port) (f : PortCounters → PortCounters) : (s.onCount p f).control = s.control := rfl
@[simp] theorem State.onCount_mgmt (p : Port) (f : PortCounters → PortCounters) : (s.onCount p f).mgmt = s.mgmt := rfl
@[simp] theorem State.onCount_events (p : Port) (f : PortCounters → PortCounters) : (s.onCount p f).events = s.events := rfl
@[simp] theorem State.onCount_aux (p : Port) (f : PortCounters → PortCounters) : (s.onCount p f).aux = s.aux := rfl
@[simp] theorem State.onCount_pending (p : Port) (f : PortCounters → PortCounters) : (s.onCount p f).pending = s.pending := rfl

/-! ### setClock -/

@[simp] theorem State.setClock_resetHeld (c : Clock) : (s.setClock c).resetHeld = s.resetHeld := rfl
@[simp] theorem State.setClock_lock (c : Clock) : (s.setClock c).lock = s.lock := rfl
@[simp] theorem State.setClock_straps (c : Clock) : (s.setClock c).straps = s.straps := rfl
@[simp] theorem State.setClock_clock (c : Clock) : (s.setClock c).clock = c := rfl
@[simp] theorem State.setClock_sync (c : Clock) : (s.setClock c).sync = s.sync := rfl
@[simp] theorem State.setClock_trunkCount (c : Clock) : (s.setClock c).trunkCount = s.trunkCount := rfl
@[simp] theorem State.setClock_cfg (c : Clock) : (s.setClock c).cfg = s.cfg := rfl
@[simp] theorem State.setClock_classifier (c : Clock) : (s.setClock c).classifier = s.classifier := rfl
@[simp] theorem State.setClock_ports (c : Clock) : (s.setClock c).ports = s.ports := rfl
@[simp] theorem State.setClock_store (c : Clock) : (s.setClock c).store = s.store := rfl
@[simp] theorem State.setClock_own (c : Clock) : (s.setClock c).own = s.own := rfl
@[simp] theorem State.setClock_control (c : Clock) : (s.setClock c).control = s.control := rfl
@[simp] theorem State.setClock_mgmt (c : Clock) : (s.setClock c).mgmt = s.mgmt := rfl
@[simp] theorem State.setClock_events (c : Clock) : (s.setClock c).events = s.events := rfl
@[simp] theorem State.setClock_aux (c : Clock) : (s.setClock c).aux = s.aux := rfl
@[simp] theorem State.setClock_pending (c : Clock) : (s.setClock c).pending = s.pending := rfl

/-! ### setSync -/

@[simp] theorem State.setSync_resetHeld (r : SyncRecord) : (s.setSync r).resetHeld = s.resetHeld := rfl
@[simp] theorem State.setSync_lock (r : SyncRecord) : (s.setSync r).lock = s.lock := rfl
@[simp] theorem State.setSync_straps (r : SyncRecord) : (s.setSync r).straps = s.straps := rfl
@[simp] theorem State.setSync_clock (r : SyncRecord) : (s.setSync r).clock = s.clock := rfl
@[simp] theorem State.setSync_sync (r : SyncRecord) : (s.setSync r).sync = r := rfl
@[simp] theorem State.setSync_trunkCount (r : SyncRecord) : (s.setSync r).trunkCount = s.trunkCount := rfl
@[simp] theorem State.setSync_cfg (r : SyncRecord) : (s.setSync r).cfg = s.cfg := rfl
@[simp] theorem State.setSync_classifier (r : SyncRecord) : (s.setSync r).classifier = s.classifier := rfl
@[simp] theorem State.setSync_ports (r : SyncRecord) : (s.setSync r).ports = s.ports := rfl
@[simp] theorem State.setSync_store (r : SyncRecord) : (s.setSync r).store = s.store := rfl
@[simp] theorem State.setSync_own (r : SyncRecord) : (s.setSync r).own = s.own := rfl
@[simp] theorem State.setSync_control (r : SyncRecord) : (s.setSync r).control = s.control := rfl
@[simp] theorem State.setSync_mgmt (r : SyncRecord) : (s.setSync r).mgmt = s.mgmt := rfl
@[simp] theorem State.setSync_events (r : SyncRecord) : (s.setSync r).events = s.events := rfl
@[simp] theorem State.setSync_aux (r : SyncRecord) : (s.setSync r).aux = s.aux := rfl
@[simp] theorem State.setSync_pending (r : SyncRecord) : (s.setSync r).pending = s.pending := rfl

/-! ### setTrunk -/

@[simp] theorem State.setTrunk_resetHeld (k : TrunkCounters) : (s.setTrunk k).resetHeld = s.resetHeld := rfl
@[simp] theorem State.setTrunk_lock (k : TrunkCounters) : (s.setTrunk k).lock = s.lock := rfl
@[simp] theorem State.setTrunk_straps (k : TrunkCounters) : (s.setTrunk k).straps = s.straps := rfl
@[simp] theorem State.setTrunk_clock (k : TrunkCounters) : (s.setTrunk k).clock = s.clock := rfl
@[simp] theorem State.setTrunk_sync (k : TrunkCounters) : (s.setTrunk k).sync = s.sync := rfl
@[simp] theorem State.setTrunk_trunkCount (k : TrunkCounters) : (s.setTrunk k).trunkCount = k := rfl
@[simp] theorem State.setTrunk_cfg (k : TrunkCounters) : (s.setTrunk k).cfg = s.cfg := rfl
@[simp] theorem State.setTrunk_classifier (k : TrunkCounters) : (s.setTrunk k).classifier = s.classifier := rfl
@[simp] theorem State.setTrunk_ports (k : TrunkCounters) : (s.setTrunk k).ports = s.ports := rfl
@[simp] theorem State.setTrunk_store (k : TrunkCounters) : (s.setTrunk k).store = s.store := rfl
@[simp] theorem State.setTrunk_own (k : TrunkCounters) : (s.setTrunk k).own = s.own := rfl
@[simp] theorem State.setTrunk_control (k : TrunkCounters) : (s.setTrunk k).control = s.control := rfl
@[simp] theorem State.setTrunk_mgmt (k : TrunkCounters) : (s.setTrunk k).mgmt = s.mgmt := rfl
@[simp] theorem State.setTrunk_events (k : TrunkCounters) : (s.setTrunk k).events = s.events := rfl
@[simp] theorem State.setTrunk_aux (k : TrunkCounters) : (s.setTrunk k).aux = s.aux := rfl
@[simp] theorem State.setTrunk_pending (k : TrunkCounters) : (s.setTrunk k).pending = s.pending := rfl

/-! ### setCfg -/

@[simp] theorem State.setCfg_resetHeld (c : ConfigUnit) : (s.setCfg c).resetHeld = s.resetHeld := rfl
@[simp] theorem State.setCfg_lock (c : ConfigUnit) : (s.setCfg c).lock = s.lock := rfl
@[simp] theorem State.setCfg_straps (c : ConfigUnit) : (s.setCfg c).straps = s.straps := rfl
@[simp] theorem State.setCfg_clock (c : ConfigUnit) : (s.setCfg c).clock = s.clock := rfl
@[simp] theorem State.setCfg_sync (c : ConfigUnit) : (s.setCfg c).sync = s.sync := rfl
@[simp] theorem State.setCfg_trunkCount (c : ConfigUnit) : (s.setCfg c).trunkCount = s.trunkCount := rfl
@[simp] theorem State.setCfg_cfg (c : ConfigUnit) : (s.setCfg c).cfg = c := rfl
@[simp] theorem State.setCfg_classifier (c : ConfigUnit) : (s.setCfg c).classifier = s.classifier := rfl
@[simp] theorem State.setCfg_ports (c : ConfigUnit) : (s.setCfg c).ports = s.ports := rfl
@[simp] theorem State.setCfg_store (c : ConfigUnit) : (s.setCfg c).store = s.store := rfl
@[simp] theorem State.setCfg_own (c : ConfigUnit) : (s.setCfg c).own = s.own := rfl
@[simp] theorem State.setCfg_control (c : ConfigUnit) : (s.setCfg c).control = s.control := rfl
@[simp] theorem State.setCfg_mgmt (c : ConfigUnit) : (s.setCfg c).mgmt = s.mgmt := rfl
@[simp] theorem State.setCfg_events (c : ConfigUnit) : (s.setCfg c).events = s.events := rfl
@[simp] theorem State.setCfg_aux (c : ConfigUnit) : (s.setCfg c).aux = s.aux := rfl
@[simp] theorem State.setCfg_pending (c : ConfigUnit) : (s.setCfg c).pending = s.pending := rfl

/-! ### setClassifier -/

@[simp] theorem State.setClassifier_resetHeld (c : Classifier) : (s.setClassifier c).resetHeld = s.resetHeld := rfl
@[simp] theorem State.setClassifier_lock (c : Classifier) : (s.setClassifier c).lock = s.lock := rfl
@[simp] theorem State.setClassifier_straps (c : Classifier) : (s.setClassifier c).straps = s.straps := rfl
@[simp] theorem State.setClassifier_clock (c : Classifier) : (s.setClassifier c).clock = s.clock := rfl
@[simp] theorem State.setClassifier_sync (c : Classifier) : (s.setClassifier c).sync = s.sync := rfl
@[simp] theorem State.setClassifier_trunkCount (c : Classifier) : (s.setClassifier c).trunkCount = s.trunkCount := rfl
@[simp] theorem State.setClassifier_cfg (c : Classifier) : (s.setClassifier c).cfg = s.cfg := rfl
@[simp] theorem State.setClassifier_classifier (c : Classifier) : (s.setClassifier c).classifier = c := rfl
@[simp] theorem State.setClassifier_ports (c : Classifier) : (s.setClassifier c).ports = s.ports := rfl
@[simp] theorem State.setClassifier_store (c : Classifier) : (s.setClassifier c).store = s.store := rfl
@[simp] theorem State.setClassifier_own (c : Classifier) : (s.setClassifier c).own = s.own := rfl
@[simp] theorem State.setClassifier_control (c : Classifier) : (s.setClassifier c).control = s.control := rfl
@[simp] theorem State.setClassifier_mgmt (c : Classifier) : (s.setClassifier c).mgmt = s.mgmt := rfl
@[simp] theorem State.setClassifier_events (c : Classifier) : (s.setClassifier c).events = s.events := rfl
@[simp] theorem State.setClassifier_aux (c : Classifier) : (s.setClassifier c).aux = s.aux := rfl
@[simp] theorem State.setClassifier_pending (c : Classifier) : (s.setClassifier c).pending = s.pending := rfl

/-! ### setControl -/

@[simp] theorem State.setControl_resetHeld (c : Option ControlFrame) : (s.setControl c).resetHeld = s.resetHeld := rfl
@[simp] theorem State.setControl_lock (c : Option ControlFrame) : (s.setControl c).lock = s.lock := rfl
@[simp] theorem State.setControl_straps (c : Option ControlFrame) : (s.setControl c).straps = s.straps := rfl
@[simp] theorem State.setControl_clock (c : Option ControlFrame) : (s.setControl c).clock = s.clock := rfl
@[simp] theorem State.setControl_sync (c : Option ControlFrame) : (s.setControl c).sync = s.sync := rfl
@[simp] theorem State.setControl_trunkCount (c : Option ControlFrame) : (s.setControl c).trunkCount = s.trunkCount := rfl
@[simp] theorem State.setControl_cfg (c : Option ControlFrame) : (s.setControl c).cfg = s.cfg := rfl
@[simp] theorem State.setControl_classifier (c : Option ControlFrame) : (s.setControl c).classifier = s.classifier := rfl
@[simp] theorem State.setControl_ports (c : Option ControlFrame) : (s.setControl c).ports = s.ports := rfl
@[simp] theorem State.setControl_store (c : Option ControlFrame) : (s.setControl c).store = s.store := rfl
@[simp] theorem State.setControl_own (c : Option ControlFrame) : (s.setControl c).own = s.own := rfl
@[simp] theorem State.setControl_control (c : Option ControlFrame) : (s.setControl c).control = c := rfl
@[simp] theorem State.setControl_mgmt (c : Option ControlFrame) : (s.setControl c).mgmt = s.mgmt := rfl
@[simp] theorem State.setControl_events (c : Option ControlFrame) : (s.setControl c).events = s.events := rfl
@[simp] theorem State.setControl_aux (c : Option ControlFrame) : (s.setControl c).aux = s.aux := rfl
@[simp] theorem State.setControl_pending (c : Option ControlFrame) : (s.setControl c).pending = s.pending := rfl

/-! ### setAux -/

@[simp] theorem State.setAux_resetHeld (a : Aux) : (s.setAux a).resetHeld = s.resetHeld := rfl
@[simp] theorem State.setAux_lock (a : Aux) : (s.setAux a).lock = s.lock := rfl
@[simp] theorem State.setAux_straps (a : Aux) : (s.setAux a).straps = s.straps := rfl
@[simp] theorem State.setAux_clock (a : Aux) : (s.setAux a).clock = s.clock := rfl
@[simp] theorem State.setAux_sync (a : Aux) : (s.setAux a).sync = s.sync := rfl
@[simp] theorem State.setAux_trunkCount (a : Aux) : (s.setAux a).trunkCount = s.trunkCount := rfl
@[simp] theorem State.setAux_cfg (a : Aux) : (s.setAux a).cfg = s.cfg := rfl
@[simp] theorem State.setAux_classifier (a : Aux) : (s.setAux a).classifier = s.classifier := rfl
@[simp] theorem State.setAux_ports (a : Aux) : (s.setAux a).ports = s.ports := rfl
@[simp] theorem State.setAux_store (a : Aux) : (s.setAux a).store = s.store := rfl
@[simp] theorem State.setAux_own (a : Aux) : (s.setAux a).own = s.own := rfl
@[simp] theorem State.setAux_control (a : Aux) : (s.setAux a).control = s.control := rfl
@[simp] theorem State.setAux_mgmt (a : Aux) : (s.setAux a).mgmt = s.mgmt := rfl
@[simp] theorem State.setAux_events (a : Aux) : (s.setAux a).events = s.events := rfl
@[simp] theorem State.setAux_aux (a : Aux) : (s.setAux a).aux = a := rfl
@[simp] theorem State.setAux_pending (a : Aux) : (s.setAux a).pending = s.pending := rfl

/-! ### setEvents -/

@[simp] theorem State.setEvents_resetHeld (e : EventUnit) : (s.setEvents e).resetHeld = s.resetHeld := rfl
@[simp] theorem State.setEvents_lock (e : EventUnit) : (s.setEvents e).lock = s.lock := rfl
@[simp] theorem State.setEvents_straps (e : EventUnit) : (s.setEvents e).straps = s.straps := rfl
@[simp] theorem State.setEvents_clock (e : EventUnit) : (s.setEvents e).clock = s.clock := rfl
@[simp] theorem State.setEvents_sync (e : EventUnit) : (s.setEvents e).sync = s.sync := rfl
@[simp] theorem State.setEvents_trunkCount (e : EventUnit) : (s.setEvents e).trunkCount = s.trunkCount := rfl
@[simp] theorem State.setEvents_cfg (e : EventUnit) : (s.setEvents e).cfg = s.cfg := rfl
@[simp] theorem State.setEvents_classifier (e : EventUnit) : (s.setEvents e).classifier = s.classifier := rfl
@[simp] theorem State.setEvents_ports (e : EventUnit) : (s.setEvents e).ports = s.ports := rfl
@[simp] theorem State.setEvents_store (e : EventUnit) : (s.setEvents e).store = s.store := rfl
@[simp] theorem State.setEvents_own (e : EventUnit) : (s.setEvents e).own = s.own := rfl
@[simp] theorem State.setEvents_control (e : EventUnit) : (s.setEvents e).control = s.control := rfl
@[simp] theorem State.setEvents_mgmt (e : EventUnit) : (s.setEvents e).mgmt = s.mgmt := rfl
@[simp] theorem State.setEvents_events (e : EventUnit) : (s.setEvents e).events = e := rfl
@[simp] theorem State.setEvents_aux (e : EventUnit) : (s.setEvents e).aux = s.aux := rfl
@[simp] theorem State.setEvents_pending (e : EventUnit) : (s.setEvents e).pending = s.pending := rfl

/-! ### setSlots -/

@[simp] theorem State.setSlots_resetHeld (q : Quad (Option Session)) : (s.setSlots q).resetHeld = s.resetHeld := rfl
@[simp] theorem State.setSlots_lock (q : Quad (Option Session)) : (s.setSlots q).lock = s.lock := rfl
@[simp] theorem State.setSlots_straps (q : Quad (Option Session)) : (s.setSlots q).straps = s.straps := rfl
@[simp] theorem State.setSlots_clock (q : Quad (Option Session)) : (s.setSlots q).clock = s.clock := rfl
@[simp] theorem State.setSlots_sync (q : Quad (Option Session)) : (s.setSlots q).sync = s.sync := rfl
@[simp] theorem State.setSlots_trunkCount (q : Quad (Option Session)) : (s.setSlots q).trunkCount = s.trunkCount := rfl
@[simp] theorem State.setSlots_cfg (q : Quad (Option Session)) : (s.setSlots q).cfg = s.cfg := rfl
@[simp] theorem State.setSlots_classifier (q : Quad (Option Session)) : (s.setSlots q).classifier = s.classifier := rfl
@[simp] theorem State.setSlots_ports (q : Quad (Option Session)) : (s.setSlots q).ports = s.ports := rfl
@[simp] theorem State.setSlots_store (q : Quad (Option Session)) : (s.setSlots q).store = s.store := rfl
@[simp] theorem State.setSlots_own (q : Quad (Option Session)) : (s.setSlots q).own = s.own := rfl
@[simp] theorem State.setSlots_control (q : Quad (Option Session)) : (s.setSlots q).control = s.control := rfl
@[simp] theorem State.setSlots_mgmt (q : Quad (Option Session)) : (s.setSlots q).mgmt = { s.mgmt with slots := q } := rfl
@[simp] theorem State.setSlots_events (q : Quad (Option Session)) : (s.setSlots q).events = s.events := rfl
@[simp] theorem State.setSlots_aux (q : Quad (Option Session)) : (s.setSlots q).aux = s.aux := rfl
@[simp] theorem State.setSlots_pending (q : Quad (Option Session)) : (s.setSlots q).pending = s.pending := rfl

/-! ### setRecords -/

@[simp] theorem State.setRecords_resetHeld (rs : List StreamRecord) : (s.setRecords rs).resetHeld = s.resetHeld := rfl
@[simp] theorem State.setRecords_lock (rs : List StreamRecord) : (s.setRecords rs).lock = s.lock := rfl
@[simp] theorem State.setRecords_straps (rs : List StreamRecord) : (s.setRecords rs).straps = s.straps := rfl
@[simp] theorem State.setRecords_clock (rs : List StreamRecord) : (s.setRecords rs).clock = s.clock := rfl
@[simp] theorem State.setRecords_sync (rs : List StreamRecord) : (s.setRecords rs).sync = s.sync := rfl
@[simp] theorem State.setRecords_trunkCount (rs : List StreamRecord) : (s.setRecords rs).trunkCount = s.trunkCount := rfl
@[simp] theorem State.setRecords_cfg (rs : List StreamRecord) : (s.setRecords rs).cfg = s.cfg := rfl
@[simp] theorem State.setRecords_classifier (rs : List StreamRecord) : (s.setRecords rs).classifier = { s.classifier with records := rs } := rfl
@[simp] theorem State.setRecords_ports (rs : List StreamRecord) : (s.setRecords rs).ports = s.ports := rfl
@[simp] theorem State.setRecords_store (rs : List StreamRecord) : (s.setRecords rs).store = s.store := rfl
@[simp] theorem State.setRecords_own (rs : List StreamRecord) : (s.setRecords rs).own = s.own := rfl
@[simp] theorem State.setRecords_control (rs : List StreamRecord) : (s.setRecords rs).control = s.control := rfl
@[simp] theorem State.setRecords_mgmt (rs : List StreamRecord) : (s.setRecords rs).mgmt = s.mgmt := rfl
@[simp] theorem State.setRecords_events (rs : List StreamRecord) : (s.setRecords rs).events = s.events := rfl
@[simp] theorem State.setRecords_aux (rs : List StreamRecord) : (s.setRecords rs).aux = s.aux := rfl
@[simp] theorem State.setRecords_pending (rs : List StreamRecord) : (s.setRecords rs).pending = s.pending := rfl

/-! ### setStore -/

@[simp] theorem State.setStore_resetHeld (x : FrameStore) : (s.setStore x).resetHeld = s.resetHeld := rfl
@[simp] theorem State.setStore_lock (x : FrameStore) : (s.setStore x).lock = s.lock := rfl
@[simp] theorem State.setStore_straps (x : FrameStore) : (s.setStore x).straps = s.straps := rfl
@[simp] theorem State.setStore_clock (x : FrameStore) : (s.setStore x).clock = s.clock := rfl
@[simp] theorem State.setStore_sync (x : FrameStore) : (s.setStore x).sync = s.sync := rfl
@[simp] theorem State.setStore_trunkCount (x : FrameStore) : (s.setStore x).trunkCount = s.trunkCount := rfl
@[simp] theorem State.setStore_cfg (x : FrameStore) : (s.setStore x).cfg = s.cfg := rfl
@[simp] theorem State.setStore_classifier (x : FrameStore) : (s.setStore x).classifier = s.classifier := rfl
@[simp] theorem State.setStore_ports (x : FrameStore) : (s.setStore x).ports = s.ports := rfl
@[simp] theorem State.setStore_store (x : FrameStore) : (s.setStore x).store = x := rfl
@[simp] theorem State.setStore_own (x : FrameStore) : (s.setStore x).own = s.own := rfl
@[simp] theorem State.setStore_control (x : FrameStore) : (s.setStore x).control = s.control := rfl
@[simp] theorem State.setStore_mgmt (x : FrameStore) : (s.setStore x).mgmt = s.mgmt := rfl
@[simp] theorem State.setStore_events (x : FrameStore) : (s.setStore x).events = s.events := rfl
@[simp] theorem State.setStore_aux (x : FrameStore) : (s.setStore x).aux = s.aux := rfl
@[simp] theorem State.setStore_pending (x : FrameStore) : (s.setStore x).pending = s.pending := rfl

/-! ### setOwn -/

@[simp] theorem State.setOwn_resetHeld (q : List OwnFrame) : (s.setOwn q).resetHeld = s.resetHeld := rfl
@[simp] theorem State.setOwn_lock (q : List OwnFrame) : (s.setOwn q).lock = s.lock := rfl
@[simp] theorem State.setOwn_straps (q : List OwnFrame) : (s.setOwn q).straps = s.straps := rfl
@[simp] theorem State.setOwn_clock (q : List OwnFrame) : (s.setOwn q).clock = s.clock := rfl
@[simp] theorem State.setOwn_sync (q : List OwnFrame) : (s.setOwn q).sync = s.sync := rfl
@[simp] theorem State.setOwn_trunkCount (q : List OwnFrame) : (s.setOwn q).trunkCount = s.trunkCount := rfl
@[simp] theorem State.setOwn_cfg (q : List OwnFrame) : (s.setOwn q).cfg = s.cfg := rfl
@[simp] theorem State.setOwn_classifier (q : List OwnFrame) : (s.setOwn q).classifier = s.classifier := rfl
@[simp] theorem State.setOwn_ports (q : List OwnFrame) : (s.setOwn q).ports = s.ports := rfl
@[simp] theorem State.setOwn_store (q : List OwnFrame) : (s.setOwn q).store = s.store := rfl
@[simp] theorem State.setOwn_own (q : List OwnFrame) : (s.setOwn q).own = q := rfl
@[simp] theorem State.setOwn_control (q : List OwnFrame) : (s.setOwn q).control = s.control := rfl
@[simp] theorem State.setOwn_mgmt (q : List OwnFrame) : (s.setOwn q).mgmt = s.mgmt := rfl
@[simp] theorem State.setOwn_events (q : List OwnFrame) : (s.setOwn q).events = s.events := rfl
@[simp] theorem State.setOwn_aux (q : List OwnFrame) : (s.setOwn q).aux = s.aux := rfl
@[simp] theorem State.setOwn_pending (q : List OwnFrame) : (s.setOwn q).pending = s.pending := rfl

/-! ### prompt -/

@[simp] theorem State.prompt_resetHeld (p : Port) : (s.prompt p).resetHeld = s.resetHeld := rfl
@[simp] theorem State.prompt_lock (p : Port) : (s.prompt p).lock = s.lock := rfl
@[simp] theorem State.prompt_straps (p : Port) : (s.prompt p).straps = s.straps := rfl
@[simp] theorem State.prompt_clock (p : Port) : (s.prompt p).clock = s.clock := rfl
@[simp] theorem State.prompt_sync (p : Port) : (s.prompt p).sync = s.sync := rfl
@[simp] theorem State.prompt_trunkCount (p : Port) : (s.prompt p).trunkCount = s.trunkCount := rfl
@[simp] theorem State.prompt_cfg (p : Port) : (s.prompt p).cfg = s.cfg := rfl
@[simp] theorem State.prompt_classifier (p : Port) : (s.prompt p).classifier = s.classifier := rfl
@[simp] theorem State.prompt_ports (p : Port) : (s.prompt p).ports = s.ports := rfl
@[simp] theorem State.prompt_store (p : Port) : (s.prompt p).store = s.store := rfl
@[simp] theorem State.prompt_own (p : Port) : (s.prompt p).own = s.own := rfl
@[simp] theorem State.prompt_control (p : Port) : (s.prompt p).control = s.control := rfl
@[simp] theorem State.prompt_mgmt (p : Port) : (s.prompt p).mgmt = s.mgmt := rfl
@[simp] theorem State.prompt_events (p : Port) : (s.prompt p).events = s.events := rfl
@[simp] theorem State.prompt_aux (p : Port) : (s.prompt p).aux = { s.aux with choiceDue := s.aux.choiceDue.set p true } := rfl
@[simp] theorem State.prompt_pending (p : Port) : (s.prompt p).pending = s.pending := rfl

/-! ### offerSlot -/

@[simp] theorem State.offerSlot_resetHeld : s.offerSlot.resetHeld = s.resetHeld := rfl
@[simp] theorem State.offerSlot_lock : s.offerSlot.lock = s.lock := rfl
@[simp] theorem State.offerSlot_straps : s.offerSlot.straps = s.straps := rfl
@[simp] theorem State.offerSlot_clock : s.offerSlot.clock = s.clock := rfl
@[simp] theorem State.offerSlot_sync : s.offerSlot.sync = s.sync := rfl
@[simp] theorem State.offerSlot_trunkCount : s.offerSlot.trunkCount = s.trunkCount := rfl
@[simp] theorem State.offerSlot_cfg : s.offerSlot.cfg = s.cfg := rfl
@[simp] theorem State.offerSlot_classifier : s.offerSlot.classifier = s.classifier := rfl
@[simp] theorem State.offerSlot_ports : s.offerSlot.ports = s.ports := rfl
@[simp] theorem State.offerSlot_store : s.offerSlot.store = s.store := rfl
@[simp] theorem State.offerSlot_own : s.offerSlot.own = s.own := rfl
@[simp] theorem State.offerSlot_control : s.offerSlot.control = s.control := rfl
@[simp] theorem State.offerSlot_mgmt : s.offerSlot.mgmt = s.mgmt := rfl
@[simp] theorem State.offerSlot_events : s.offerSlot.events = s.events := rfl
@[simp] theorem State.offerSlot_aux : s.offerSlot.aux = { s.aux with slotFreed := true } := rfl
@[simp] theorem State.offerSlot_pending : s.offerSlot.pending = s.pending := rfl

/-! ### promptAll -/

@[simp] theorem State.promptAll_resetHeld : (s.promptAll).resetHeld = s.resetHeld := rfl
@[simp] theorem State.promptAll_lock : (s.promptAll).lock = s.lock := rfl
@[simp] theorem State.promptAll_straps : (s.promptAll).straps = s.straps := rfl
@[simp] theorem State.promptAll_clock : (s.promptAll).clock = s.clock := rfl
@[simp] theorem State.promptAll_sync : (s.promptAll).sync = s.sync := rfl
@[simp] theorem State.promptAll_trunkCount : (s.promptAll).trunkCount = s.trunkCount := rfl
@[simp] theorem State.promptAll_cfg : (s.promptAll).cfg = s.cfg := rfl
@[simp] theorem State.promptAll_classifier : (s.promptAll).classifier = s.classifier := rfl
@[simp] theorem State.promptAll_ports : (s.promptAll).ports = s.ports := rfl
@[simp] theorem State.promptAll_store : (s.promptAll).store = s.store := rfl
@[simp] theorem State.promptAll_own : (s.promptAll).own = s.own := rfl
@[simp] theorem State.promptAll_control : (s.promptAll).control = s.control := rfl
@[simp] theorem State.promptAll_mgmt : (s.promptAll).mgmt = s.mgmt := rfl
@[simp] theorem State.promptAll_events : (s.promptAll).events = s.events := rfl
@[simp] theorem State.promptAll_aux : (s.promptAll).aux = { s.aux with choiceDue := PerPort.fill true } := rfl
@[simp] theorem State.promptAll_pending : (s.promptAll).pending = s.pending := rfl

end Machine

end Sys2Proof
end

