-- ==== Sys2Proof/Laws/Kept.lean ====
section
/-! SUPPORT. What the operations on ports, queues, store and notices leave alone: one lemma per operation. -/

namespace Sys2Proof.Machine

open Sys2Proof

/-- The gate-wide state that the operations on ports, queues, frame store and event queue never touch. -/
structure Kept (s t : State) : Prop where
  resetHeld : t.resetHeld = s.resetHeld
  lock : t.lock = s.lock
  straps : t.straps = s.straps
  clock : t.clock = s.clock
  sync : t.sync = s.sync
  trunkCount : t.trunkCount = s.trunkCount
  cfg : t.cfg = s.cfg
  mgmt : t.mgmt = s.mgmt
  pending : t.pending = s.pending

namespace Kept

theorem refl (s : State) : Kept s s := ⟨rfl, rfl, rfl, rfl, rfl, rfl, rfl, rfl, rfl⟩

theorem trans {s t u : State} (h : Kept s t) (k : Kept t u) : Kept s u :=
  ⟨k.1.trans h.1, k.2.trans h.2, k.3.trans h.3, k.4.trans h.4, k.5.trans h.5, k.6.trans h.6, k.7.trans h.7,
    k.8.trans h.8, k.9.trans h.9⟩

theorem foldl {α : Type} {f : State → α → State} (h : ∀ s a, Kept s (f s a)) (l : List α) (s : State) :
    Kept s (l.foldl f s) := by
  induction l generalizing s with
  | nil => exact refl s
  | cons a l ih => exact (h s a).trans (ih (f s a))

theorem ite {c : Prop} [Decidable c] {s t u : State} (h : Kept s t) (k : Kept s u) : Kept s (if c then t else u) := by
  split <;> assumption

/-- What the kept fields decide: the enforcing condition and the mode. -/
theorem enforcing {s t : State} (h : Kept s t) : t.enforcing = s.enforcing := by
  simp [State.enforcing, h.sync, h.cfg]

theorem mode {s t : State} (h : Kept s t) : t.mode = s.mode := by
  simp [State.mode, h.enforcing, h.cfg]

/-- The open window is decided by the kept fields and the openings taken at this instant. -/
theorem openWindow {s t : State} (h : Kept s t) (ho : t.aux.openedAt = s.aux.openedAt) (p : Port) :
    t.openWindow p = s.openWindow p := by
  simp [State.openWindow, State.openingTaken, h.cfg, h.clock, ho]

end Kept

/-- Closes a goal `Kept s t` where `t` is a record update of `s`. -/
theorem kept_of_update {s t : State}
    (h : (t.resetHeld, t.lock, t.straps, t.clock, t.sync, t.trunkCount, t.cfg, t.mgmt, t.pending) =
      (s.resetHeld, s.lock, s.straps, s.clock, s.sync, s.trunkCount, s.cfg, s.mgmt, s.pending)) : Kept s t := by
  simp only [Prod.mk.injEq] at h
  obtain ⟨a, b, c, d, e, f, g, i, j⟩ := h
  exact ⟨a, b, c, d, e, f, g, i, j⟩

/-! ### Updates -/

theorem onPort_kept (s : State) (p : Port) (f : PortUnit → PortUnit) : Kept s (s.onPort p f) := kept_of_update rfl

theorem onCount_kept (s : State) (p : Port) (f : PortCounters → PortCounters) : Kept s (s.onCount p f) :=
  kept_of_update rfl

theorem setEvents_kept (s : State) (e : EventUnit) : Kept s (s.setEvents e) := kept_of_update rfl

theorem setOwn_kept (s : State) (q : List OwnFrame) : Kept s (s.setOwn q) := kept_of_update rfl

theorem setStore_kept (s : State) (x : FrameStore) : Kept s (s.setStore x) := kept_of_update rfl

theorem prompt_kept (s : State) (p : Port) : Kept s (s.prompt p) := kept_of_update rfl

theorem offerSlot_kept (s : State) : Kept s s.offerSlot := kept_of_update rfl

theorem promptAll_kept (s : State) : Kept s s.promptAll := kept_of_update rfl

theorem onRecord_kept (s : State) (n : StreamNo) (f : StreamRecord → StreamRecord) : Kept s (s.onRecord n f) :=
  kept_of_update rfl

theorem release_kept (s : State) (d : Descriptor) : Kept s (s.release d) := kept_of_update rfl

theorem returnBlocks_kept (s : State) (n : Nat) : Kept s (s.returnBlocks n) := kept_of_update rfl

theorem useFree_kept (s : State) (n : Nat) : Kept s (s.useFree n) := kept_of_update rfl

theorem setAux_kept (s : State) (a : Aux) : Kept s { s with aux := a } := kept_of_update rfl

/-! ### Notices -/

theorem raiseAt_kept (s : State) (k : NoticeKind) (p : Option Port) (n : Option StreamNo) (c d : Word) :
    Kept s (s.raiseAt k p n c d) := kept_of_update rfl

theorem raise_kept (s : State) (k : NoticeKind) (p : Option Port) (n : Option StreamNo) (d : Word) :
    Kept s (s.raise k p n d) := kept_of_update rfl

theorem reportExhausted_kept (s : State) (p : Port) (n : Nat) : Kept s (s.reportExhausted p n) :=
  Kept.ite (.refl s) (kept_of_update rfl)

theorem clearSink_kept (s : State) : Kept s s.clearSink := kept_of_update rfl

theorem queueOverflow_kept (s : State) : Kept s s.queueOverflow := kept_of_update rfl

/-! ### Own frames -/

theorem appendOwn_kept (s : State) (f : OwnFrame) : Kept s (s.appendOwn f) :=
  Kept.ite (kept_of_update rfl) (kept_of_update rfl)

theorem respond_kept (s : State) (h : RequestHead) (payload : List Byte) (m : Bool) : Kept s (s.respond h payload m) :=
  Kept.ite (appendOwn_kept ..) (onCount_kept ..)

theorem retransmit_kept (s : State) : Kept s s.retransmit := by
  unfold State.retransmit
  split
  · exact Kept.ite ((setEvents_kept ..).trans (appendOwn_kept ..)) (.refl s)
  · exact .refl s

theorem buildReport_kept (s : State) : Kept s s.buildReport := by
  unfold State.buildReport
  split
  · exact .refl s
  · exact Kept.ite ((setEvents_kept ..).trans (appendOwn_kept ..)) (.refl s)

theorem eventWork_kept (s : State) : Kept s s.eventWork :=
  Kept.ite (kept_of_update rfl) (((queueOverflow_kept s).trans (retransmit_kept _)).trans (buildReport_kept _))

/-! ### Late descriptors and flushes -/

theorem countLate_kept (s : State) (c : Configuration) (p : Port) (d : Descriptor) : Kept s (s.countLate c p d) :=
  Kept.ite (kept_of_update rfl) (kept_of_update rfl)

theorem reportLate_kept (s : State) (c : Configuration) (p : Port) (n : StreamNo) (b : Bool) (k : Word) (m : Nat) :
    Kept s (s.reportLate c p n b k m) := by
  unfold State.reportLate
  split
  · exact .refl s
  · exact Kept.ite (kept_of_update rfl) (.refl s)

theorem expirePort_kept (s : State) (n : Word) (p : Port) : Kept s (s.expirePort n p) := by
  refine Kept.trans ?_ (Kept.foldl (fun t m => reportLate_kept ..) _ _)
  refine Kept.trans ?_ (Kept.foldl (fun t d => countLate_kept ..) _ _)
  exact Kept.ite (kept_of_update rfl) (kept_of_update rfl)

theorem flushQueues_kept (s : State) (p : Port) : Kept s (s.flushQueues p) :=
  (onPort_kept ..).trans (Kept.foldl (fun t d => release_kept t d) _ _)

theorem cutOff_kept (s : State) (p : Port) : Kept s (s.cutOff p) := by
  unfold State.cutOff
  split
  · exact kept_of_update rfl
  · exact kept_of_update rfl

theorem abandon_kept (s : State) (p : Port) : Kept s (s.abandon p) :=
  Kept.ite (kept_of_update rfl) (kept_of_update rfl)

/-! ### Choices -/

theorem dropStale_kept (s : State) (p : Port) (c : Fin 4) : Kept s (s.dropStale p c) :=
  (onPort_kept ..).trans (Kept.foldl (fun _ _ => (countLate_kept ..).trans (reportLate_kept ..)) _ _)

theorem startData_kept (s : State) (p : Port) (c : Fin 4) (d : Descriptor) (q : List Descriptor) :
    Kept s (s.startData p c d q) := onPort_kept ..

theorem startOwn_kept (s : State) (f : OwnFrame) (q : List OwnFrame) : Kept s (s.startOwn f q) := kept_of_update rfl

theorem tryClasses_kept (fits : Nat → Bool) (p : Port) (cs : List (Fin 4)) (s : State) :
    Kept s (s.tryClasses fits p cs) := by
  induction cs generalizing s with
  | nil => exact .refl s
  | cons c cs ih =>
    refine (dropStale_kept s p c).trans ?_
    simp only [State.tryClasses]
    split
    · exact ih _
    · exact Kept.ite (startData_kept ..) (ih _)

theorem serve_kept (s : State) (fits : Nat → Bool) (own : Bool) (cs : List (Fin 4)) (p : Port) :
    Kept s (s.serve fits own cs p) := by
  unfold State.serve
  split
  · exact tryClasses_kept ..
  · exact Kept.ite (startOwn_kept ..) (tryClasses_kept ..)

theorem choose_kept (s : State) (p : Port) : Kept s (s.choose p) := by
  unfold State.choose
  split
  · split
    · split
      · exact .refl s
      · exact serve_kept ..
    · exact serve_kept ..
    · exact serve_kept ..
  · exact .refl s

theorem chooseIfDue_kept (s : State) (p : Port) : Kept s (s.chooseIfDue p) := by
  unfold State.chooseIfDue
  split
  · exact Kept.trans (by exact kept_of_update rfl) (choose_kept _ p)
  · exact .refl s

theorem makeChoices_kept (s : State) : Kept s s.makeChoices := Kept.foldl (fun t p => chooseIfDue_kept t p) _ s

theorem completeDrain_kept (s : State) (p : Port) : Kept s (s.completeDrain p) :=
  Kept.ite (kept_of_update rfl) (.refl s)

theorem completeDrains_kept (s : State) : Kept s s.completeDrains := Kept.foldl (fun t p => completeDrain_kept t p) _ s

/-- The follow-on steps of a command touch no gate-wide state. -/
theorem settle_kept (s : State) : Kept s (settle s) :=
  (((makeChoices_kept s).trans (completeDrains_kept _)).trans (eventWork_kept _)).trans (makeChoices_kept _)

/-! ### Reception and links -/

theorem onRx_kept (s : State) (p : Port) (f : Reception → Reception) : Kept s (s.onRx p f) := kept_of_update rfl

theorem enterUnkept_kept (s : State) (p : Port) (d : Disposition) : Kept s (s.enterUnkept p d) := kept_of_update rfl

theorem enterControl_kept (s : State) (h : Header) : Kept s (s.enterControl h) := kept_of_update rfl

theorem claim_kept (s : State) (p : Port) (n : Nat) : Kept s (s.claim p n) :=
  Kept.ite (kept_of_update rfl) (((onCount_kept ..).trans (reportExhausted_kept ..)).trans (onRx_kept ..))

theorem decideHeader_kept (s : State) (p : Port) (h : Header) : Kept s (s.decideHeader p h) := by
  unfold State.decideHeader
  exact Kept.ite (kept_of_update rfl) (Kept.ite (enterUnkept_kept ..) (Kept.ite (enterUnkept_kept ..)
    (Kept.ite (enterControl_kept ..) (Kept.ite (enterUnkept_kept ..) (Kept.ite (enterUnkept_kept ..) (claim_kept ..))))))

theorem finishReception_kept (s : State) (p : Port) : Kept s (s.finishReception p) :=
  Kept.ite (kept_of_update rfl) (kept_of_update rfl)

theorem endRunt_kept (s : State) (p : Port) : Kept s (s.endRunt p) :=
  (finishReception_kept s p).trans (onCount_kept ..)

theorem offer_kept (s : State) (d : Descriptor) (p : Port) : Kept s (s.offer d p).1 := by
  unfold State.offer
  dsimp only
  split
  · exact kept_of_update rfl
  · split
    · exact kept_of_update rfl
    · split
      · exact kept_of_update rfl
      · exact Kept.ite (kept_of_update rfl) (kept_of_update rfl)

theorem offerAll_kept (d : Descriptor) (ps : List Port) (s : State) : Kept s (s.offerAll d ps).1 := by
  induction ps generalizing s with
  | nil => exact .refl s
  | cons p ps ih => exact (offer_kept s d p).trans (ih _)

theorem acceptFrame_kept (s : State) (e : StreamEntry) (h : Header) (payload : List Byte) (n : Nat) :
    Kept s (s.acceptFrame e h payload n) := by
  unfold State.acceptFrame
  exact Kept.ite (((onRecord_kept ..).trans (offerAll_kept ..)).trans (returnBlocks_kept ..))
    (((onRecord_kept ..).trans (offerAll_kept ..)).trans (setStore_kept ..))

theorem unknownStream_kept (s : State) (p : Port) (n : StreamNo) : Kept s (s.unknownStream p n) :=
  Kept.ite (kept_of_update rfl) (kept_of_update rfl)

theorem oversizeFrame_kept (s : State) (p : Port) (e : StreamEntry) (r : StreamRecord) (n : Nat) :
    Kept s (s.oversizeFrame p e r n) := Kept.ite (kept_of_update rfl) (kept_of_update rfl)

theorem policeFrame_kept (s : State) (p : Port) (e : StreamEntry) (r : StreamRecord) :
    Kept s (s.policeFrame p e r) := Kept.ite (kept_of_update rfl) (kept_of_update rfl)

theorem classify_kept (s : State) (p : Port) (h : Header) (payload : List Byte) (n : Nat) :
    Kept s (s.classify p h payload n) := by
  unfold State.classify
  split
  · exact kept_of_update rfl
  · split
    · exact (unknownStream_kept ..).trans (returnBlocks_kept ..)
    · exact Kept.ite (kept_of_update rfl) (Kept.ite ((oversizeFrame_kept ..).trans (returnBlocks_kept ..))
        (Kept.ite ((policeFrame_kept ..).trans (returnBlocks_kept ..))
          ((Kept.ite (.refl s) (onRecord_kept ..)).trans (acceptFrame_kept ..))))

theorem loseReception_kept (s : State) (p : Port) : Kept s (s.loseReception p) :=
  Kept.trans (Kept.ite (.refl s) (onCount_kept ..)) (abandon_kept ..)

theorem loseTransmission_kept (s : State) (p : Port) : Kept s (s.loseTransmission p) :=
  Kept.ite (.refl s) ((cutOff_kept s p).trans (onCount_kept ..))

theorem loseQueues_kept (s : State) (p : Port) : Kept s (s.loseQueues p) := by
  unfold State.loseQueues
  exact Kept.trans ((flushQueues_kept s p).trans (Kept.ite (setOwn_kept _ _) (.refl _))) (onCount_kept _ p _)

theorem finishDrainByLink_kept (s : State) (p : Port) (n : Nat) : Kept s (s.finishDrainByLink p n) :=
  Kept.ite (kept_of_update rfl) (.refl s)

theorem loseLink_kept (s : State) (p : Port) : Kept s (s.loseLink p) :=
  (((((loseReception_kept s p).trans (loseTransmission_kept _ p)).trans (loseQueues_kept _ p)).trans
    (onPort_kept ..)).trans (raise_kept ..)).trans (finishDrainByLink_kept ..)

theorem endData_kept (s : State) (p : Port) (d : Descriptor) : Kept s (s.endData p d) := by
  unfold State.endData
  refine Kept.trans ?_ (prompt_kept _ p)
  exact Kept.ite (kept_of_update rfl) (kept_of_update rfl)

theorem startDrain_kept (s : State) (p : Port) (o : DrainOption) : Kept s (s.startDrain p o) := by
  unfold State.startDrain
  cases o
  · exact ((flushQueues_kept s p).trans (onCount_kept _ p _)).trans (onPort_kept _ p _)
  · exact onPort_kept _ p _

theorem takeDrain_kept (s : State) (a b : Byte) : Kept s (s.takeDrain a b).1 := by
  unfold State.takeDrain
  split
  · split
    · exact .refl s
    · exact (startDrain_kept ..).trans (completeDrain_kept ..)
  · exact .refl s

theorem takeResume_kept (s : State) (a : Byte) : Kept s (s.takeResume a).1 := by
  unfold State.takeResume
  split
  · exact .refl s
  · dsimp only
    split
    · exact .refl s
    · exact kept_of_update rfl

theorem offerSync_kept (s : State) (p : Port) : Kept s (s.offerSync p) := by
  unfold State.offerSync
  exact Kept.ite (Kept.ite (onPort_kept ..) (onCount_kept ..)) (.refl s)

theorem takeOpening_kept (s : State) (p : Port) : Kept s (s.takeOpening p) := Kept.ite (kept_of_update rfl) (kept_of_update rfl)

theorem openAtZero_kept (s : State) (p : Port) : Kept s (s.openAtZero p) := Kept.ite (takeOpening_kept ..) (.refl s)

theorem leaveExpiries_kept (s : State) : Kept s s.leaveExpiries := setAux_kept ..

end Sys2Proof.Machine
end

