-- ==== Sys2Proof/Laws/Closed.lean ====
section
/-! SUPPORT. What a step can do to the gate-wide state, said once: a condition on that state that every operation below keeps is kept by
every step. -/

namespace Sys2Proof.Machine

open Sys2Proof

/-- A command that the running gate takes answers the settled effect. -/
theorem taken_next {s t : State} {f : State → State} (h : taken s f = .next t) :
    (s.resetHeld = true ∧ t = s) ∨ (s.resetHeld = false ∧ t = settle (f s)) := by
  simp only [taken, Host.Outcome.next.injEq] at h
  cases hs : s.resetHeld <;> simp_all

/-- The judgements of the six staging requests. -/
inductive StagingJudge : (Configuration → Judgement) → Prop where
  | streamPut (b : StreamBody) : StagingJudge (judgeStreamPut b)
  | streamDelete (n : Half) : StagingJudge (judgeStreamDelete n)
  | windowPut (b : WindowBody) : StagingJudge (judgeWindowPut b)
  | windowDelete (p : Byte) (n : Word) : StagingJudge (judgeWindowDelete p n)
  | windowClear (p : Byte) : StagingJudge (judgeWindowClear p)
  | params (b : ParamsBody) : StagingJudge (judgeParams b)

/-- Some station holds an EDIT session. -/
def State.EditHeld (s : State) : Prop := ∃ i x, s.mgmt.slots.get i = some x ∧ x.mode = .edit

/-- What an accepted OPEN may rely on (R137): the source can hold a session, the lease is in range, and no other station holds EDIT where
EDIT is asked for. -/
structure OpenOk (s : State) (h : RequestHead) (m : SessionMode) (lease : Nat) : Prop where
  source : validSource h = true
  low : 100 ≤ lease
  high : lease ≤ 60000
  edit : m = .edit → ∀ x, editStation s.mgmt.slots = some x → x = h.source

/-- The operations through which a step changes the gate-wide state. -/
structure GateClosed (P : State → Prop) : Prop where
  kept : ∀ {s t}, Kept s t → P s → P t
  advance : ∀ {s} n, P s → P (s.advance n)
  cycleStart : ∀ {s}, s.resetHeld = false → P s → P s.cycleStart
  takeSync : ∀ {s} a b c d, s.resetHeld = false → P s → P (s.takeSync a b c d)
  missCycle : ∀ {s}, s.resetHeld = false → s.sync.accepted = false → P s → P s.missCycle
  warmRestart : ∀ {s}, s.resetHeld = false → P s → P s.warmRestart
  powerOn : ∀ a b l q, P (State.powerOn a b l q)
  resetAssert : ∀ {s}, P s → P { s with resetHeld := true, lock := false }
  renewLease : ∀ {s} x, P s → P (s.renewLease x)
  record : ∀ {s} h b, P s → P (s.record h b)
  endSession : ∀ {s} i, P s → P (s.endSession i)
  loseSink : ∀ {s} x, P s → P (s.loseSink x)
  acceptOpen : ∀ {s h m l}, s.resetHeld = false → OpenOk s h m l → P s → P (s.acceptOpen h m l)
  stage : ∀ {s j}, s.EditHeld → s.cfg.armed = none → StagingJudge j → P s →
    P { s with cfg := s.cfg.stage (j s.cfg.staged) }
  commit : ∀ {s} n x, s.EditHeld → P s → P { s with cfg := (s.cfg.commit n x).1 }
  abort : ∀ {s} o e, s.EditHeld → P s → P { s with cfg := (s.cfg.abort o e).1 }
  restartMark : ∀ {s}, P s → P { s with mgmt := { s.mgmt with restartPending := true } }
  clearCounters : ∀ {s}, P s → P s.clearCounters

theorem sessionSlot_some {q : Quad (Option Session)} {n : Byte} {i : Fin 4} (h : sessionSlot q n = some i) :
    ∃ x, q.get i = some x ∧ x.station = n := by
  have := List.find?_some h
  rw [Option.any_eq_true] at this
  obtain ⟨x, hx, hn⟩ := this
  exact ⟨x, hx, by simpa using hn⟩

theorem sessionOf_some {q : Quad (Option Session)} {n : Byte} {x : Session} (h : sessionOf q n = some x) :
    ∃ i, sessionSlot q n = some i ∧ q.get i = some x ∧ x.station = n := by
  simp only [sessionOf, Option.bind_eq_some_iff] at h
  obtain ⟨i, hi, hx⟩ := h
  obtain ⟨y, hy, hn⟩ := sessionSlot_some hi
  rw [hy] at hx
  cases hx
  exact ⟨i, hi, hy, hn⟩

/-! ### Operations that leave the reset pin alone -/

theorem clearSink_resetHeld (s : State) : s.clearSink.resetHeld = s.resetHeld := rfl

theorem endSession_resetHeld (s : State) (i : Fin 4) : (s.endSession i).resetHeld = s.resetHeld := by
  unfold State.endSession
  split
  · rfl
  · dsimp only
    split <;> split <;> rfl

/-! ### What a served request can do -/

section
variable {P : State → Prop} (hP : GateClosed P)
include hP

theorem GateClosed.answer {s : State} (h : RequestHead) (c : Byte) (r : Reply) (b : Bool) (hr : s.resetHeld = false)
    (hs : P s) : P (s.answer h c r b) := by
  unfold State.answer
  have h1 : P (if b then s.record h (responsePayload c r) else s) := by
    split
    · exact hP.record _ _ hs
    · exact hs
  have hr1 : (if b then s.record h (responsePayload c r) else s).resetHeld = false := by split <;> exact hr
  dsimp only
  revert h1 hr1
  generalize (if b = true then s.record h (responsePayload c r) else s) = t
  intro h1 hr1
  split
  · exact hP.warmRestart ((respond_kept ..).resetHeld.trans hr1) (hP.kept (respond_kept ..) h1)
  · exact hP.kept (respond_kept ..) h1

/-- A condition that the judging steps and the act of a request keep is kept by serving it (R134). -/
theorem GateClosed.serve {s : State} {h : RequestHead} {c : Byte} {edit ok : Bool} {act : State → State × Reply}
    (ha : ∀ t, t.resetHeld = false → (edit = true → t.EditHeld) → P t →
      P (act t).1 ∧ (act t).1.resetHeld = false)
    (hr : s.resetHeld = false) (hs : P s) : P (s.serveRequest h c edit ok act) := by
  unfold State.serveRequest
  have h1 : P (s.renewLease h.source) := hP.renewLease _ hs
  have hr1 : (s.renewLease h.source).resetHeld = false := hr
  generalize s.renewLease h.source = t at h1 hr1
  dsimp only
  split
  · split
    · exact hP.answer _ _ _ _ hr1 h1
    · split
      · exact hP.answer _ _ _ _ hr1 h1
      · rename_i x hx
        split
        · exact hP.kept (respond_kept ..) h1
        · split
          · exact hP.answer _ _ _ _ hr1 h1
          · split
            · exact hP.answer _ _ _ _ hr1 h1
            · split
              · exact hP.answer _ _ _ _ hr1 h1
              · rename_i hm
                have := ha t hr1 (fun he => by
                  obtain ⟨i, -, hi, -⟩ := sessionOf_some hx
                  refine ⟨i, x, hi, ?_⟩
                  simpa [he] using hm) h1
                exact hP.answer _ _ _ _ this.2 this.1
  · exact hs

/-! ### The requests -/

theorem GateClosed.closeRequest {s : State} (h : RequestHead) (hr : s.resetHeld = false) (hs : P s) :
    P (s.closeRequest h) := by
  refine hP.serve (fun t hr _ ht => ?_) hr hs
  split
  · rename_i i _
    refine ⟨hP.endSession _ ht, ?_⟩
    exact (endSession_resetHeld t i).trans hr
  · exact ⟨ht, hr⟩

theorem GateClosed.renewRequest {s : State} (h : RequestHead) (hr : s.resetHeld = false) (hs : P s) :
    P (s.renewRequest h) := hP.serve (fun _ hr _ ht => ⟨ht, hr⟩) hr hs

theorem GateClosed.unknownRequest {s : State} (h : RequestHead) (c : Byte) (hr : s.resetHeld = false) (hs : P s) :
    P (s.unknownRequest h c) := hP.serve (fun _ hr _ ht => ⟨ht, hr⟩) hr hs

theorem GateClosed.readRequest {s : State} (h : RequestHead) (n : Nat) (f : State → Reply) (hr : s.resetHeld = false)
    (hs : P s) : P (s.readRequest h n f) := hP.serve (fun _ hr _ ht => ⟨ht, hr⟩) hr hs

theorem GateClosed.readUnknown {s : State} (h : RequestHead) (hr : s.resetHeld = false) (hs : P s) :
    P (s.readUnknown h) := hP.serve (fun _ hr _ ht => ⟨ht, hr⟩) hr hs

/-- A READ that may use free values (R104, R132, R161). -/
theorem GateClosed.readFree {s : State} (h : RequestHead) (b : Bool) (c : State → Bool) (n : Nat) (f : State → Reply)
    (hr : s.resetHeld = false) (hs : P s) :
    P (s.serveRequest h codeRead false b fun t => (if c t then t.useFree n else t, f t)) := by
  refine hP.serve (fun t hr _ ht => ?_) hr hs
  dsimp only
  split
  · exact ⟨hP.kept (useFree_kept ..) ht, hr⟩
  · exact ⟨ht, hr⟩

theorem GateClosed.readPort {s : State} (h : RequestHead) (x : Byte) (hr : s.resetHeld = false) (hs : P s) :
    P (s.readPort h x) := by
  refine hP.serve (fun t hr _ ht => ?_) hr hs
  split
  · split
    · exact ⟨hP.kept (useFree_kept ..) ht, hr⟩
    · exact ⟨ht, hr⟩
  · exact ⟨ht, hr⟩

theorem GateClosed.readSync {s : State} (h : RequestHead) (hr : s.resetHeld = false) (hs : P s) : P (s.readSync h) := by
  refine hP.serve (fun t hr _ ht => ?_) hr hs
  split
  · exact ⟨hP.kept (useFree_kept ..) ht, hr⟩
  · exact ⟨ht, hr⟩

theorem GateClosed.readEvents {s : State} (h : RequestHead) (hr : s.resetHeld = false) (hs : P s) :
    P (s.readEvents h) := by
  refine hP.serve (fun t hr _ ht => ?_) hr hs
  split
  · exact ⟨hP.kept (useFree_kept ..) ht, hr⟩
  · exact ⟨ht, hr⟩

theorem GateClosed.ackRequest {s : State} (h : RequestHead) (n : Half) (hr : s.resetHeld = false) (hs : P s) :
    P (s.ackRequest h n) := hP.serve (fun _ hr _ ht => ⟨hP.kept (setEvents_kept ..) ht, hr⟩) hr hs

theorem GateClosed.stageRequest {s : State} (h : RequestHead) (c : Byte) (b : Bool) {j : Configuration → Judgement}
    (hj : StagingJudge j) (hr : s.resetHeld = false) (hs : P s) : P (s.stageRequest h c b j) := by
  refine hP.serve (fun t hr he ht => ?_) hr hs
  split
  · exact ⟨ht, hr⟩
  · exact ⟨hP.stage (he rfl) (by simp_all) hj ht, hr⟩

theorem GateClosed.stageUnknown {s : State} (h : RequestHead) (c : Byte) (hr : s.resetHeld = false) (hs : P s) :
    P (s.stageUnknown h c) := by
  refine hP.serve (fun t hr _ ht => ?_) hr hs
  split
  · exact ⟨ht, hr⟩
  · exact ⟨hP.kept (useFree_kept ..) ht, hr⟩

theorem GateClosed.commitRequest {s : State} (h : RequestHead) (n : Word) (hr : s.resetHeld = false) (hs : P s) :
    P (s.commitRequest h n) := hP.serve (fun _ hr he ht => ⟨hP.commit _ _ (he rfl) ht, hr⟩) hr hs

theorem GateClosed.abortRequest {s : State} (h : RequestHead) (o : Byte) (e : Half) (hr : s.resetHeld = false)
    (hs : P s) : P (s.abortRequest h o e) := hP.serve (fun _ hr he ht => ⟨hP.abort _ _ (he rfl) ht, hr⟩) hr hs

theorem GateClosed.drainRequest {s : State} (h : RequestHead) (a b : Byte) (hr : s.resetHeld = false) (hs : P s) :
    P (s.drainRequest h a b) :=
  hP.serve (fun t hr _ ht => ⟨hP.kept (takeDrain_kept t a b) ht, (takeDrain_kept t a b).resetHeld.trans hr⟩) hr hs

theorem GateClosed.resumeRequest {s : State} (h : RequestHead) (a : Byte) (hr : s.resetHeld = false) (hs : P s) :
    P (s.resumeRequest h a) :=
  hP.serve (fun t hr _ ht => ⟨hP.kept (takeResume_kept t a) ht, (takeResume_kept t a).resetHeld.trans hr⟩) hr hs

theorem GateClosed.clearRequest {s : State} (h : RequestHead) (hr : s.resetHeld = false) (hs : P s) :
    P (s.clearRequest h) := hP.serve (fun _ hr _ ht => ⟨hP.clearCounters ht, hr⟩) hr hs

theorem GateClosed.restartRequest {s : State} (h : RequestHead) (hr : s.resetHeld = false) (hs : P s) :
    P (s.restartRequest h) := hP.serve (fun _ hr _ ht => ⟨hP.restartMark ht, hr⟩) hr hs

theorem GateClosed.openRequest {s : State} (h : RequestHead) (m : Byte) (l : Half) (hr : s.resetHeld = false)
    (hs : P s) : P (s.openRequest h m l) := by
  unfold State.openRequest
  have h1 : P (s.renewLease h.source) := hP.renewLease _ hs
  have hr1 : (s.renewLease h.source).resetHeld = false := hr
  generalize s.renewLease h.source = t at h1 hr1
  dsimp only
  split
  · rename_i hv
    split
    · exact hP.answer _ _ _ _ hr1 h1
    · split
      · exact hP.answer _ _ _ _ hr1 h1
      · split
        · exact hP.answer _ _ _ _ hr1 h1
        · split
          · exact hP.answer _ _ _ _ hr1 h1
          · rename_i hm hl
            split
            · exact hP.answer _ _ _ _ hr1 h1
            · rename_i hc
              split
              · exact hP.answer _ _ _ _ hr1 h1
              · refine hP.acceptOpen hr1 ⟨hv, by omega, by omega, ?_⟩ h1
                intro he x hx
                rw [hx] at hc
                by_contra hne
                have : m = 1 := by
                  by_contra hm1
                  rw [if_neg hm1] at he
                  cases he
                simp [Option.filter, this, hne] at hc
  · exact hs

/-! ### Delivered frames -/

theorem GateClosed.readBySelector {s : State} (h : RequestHead) (b : List Byte) (hr : s.resetHeld = false) (hs : P s) :
    P (s.readBySelector h b) := by
  unfold State.readBySelector
  split
  · exact hP.readRequest _ _ _ hr hs
  · exact hP.readRequest _ _ _ hr hs
  · exact hP.readRequest _ _ _ hr hs
  · exact hP.readRequest _ _ _ hr hs
  · exact hP.readRequest _ _ _ hr hs
  · exact hP.readPort _ _ hr hs
  · exact hP.readSync _ hr hs
  · exact hP.readRequest _ _ _ hr hs
  · exact hP.readEvents _ hr hs
  · exact hP.readRequest _ _ _ hr hs
  · exact hP.readUnknown _ hr hs

theorem GateClosed.deliverRequest {s : State} (a : Byte) (b c : Half) (d : List Byte) (hr : s.resetHeld = false)
    (hs : P s) : P (s.deliverRequest a b c d) := by
  unfold State.deliverRequest
  dsimp only
  split
  · exact hP.unknownRequest _ _ hr hs
  · split
    · exact hP.openRequest _ _ _ hr hs
    · exact hP.closeRequest _ hr hs
    · exact hP.renewRequest _ hr hs
    · exact hP.readBySelector _ _ hr hs
    · exact hP.ackRequest _ _ hr hs
    · unfold State.stageStreamBy
      split
      · exact hP.stageRequest _ _ _ (.streamPut _) hr hs
      · exact hP.stageRequest _ _ _ (.streamDelete _) hr hs
      · exact hP.stageUnknown _ _ hr hs
    · unfold State.stageWindowBy
      split
      · exact hP.stageRequest _ _ _ (.windowPut _) hr hs
      · exact hP.stageRequest _ _ _ (.windowDelete _ _) hr hs
      · exact hP.stageRequest _ _ _ (.windowClear _) hr hs
      · exact hP.stageUnknown _ _ hr hs
    · exact hP.stageRequest _ _ _ (.params _) hr hs
    · exact hP.commitRequest _ _ hr hs
    · exact hP.abortRequest _ _ _ hr hs
    · exact hP.drainRequest _ _ _ hr hs
    · exact hP.resumeRequest _ _ hr hs
    · exact hP.clearRequest _ hr hs
    · exact hP.restartRequest _ hr hs
    · exact hP.unknownRequest _ _ hr hs

theorem GateClosed.deliverControl {s : State} (c : ControlFrame) (hr : s.resetHeld = false) (hs : P s) :
    P (s.deliverControl c) := by
  unfold State.deliverControl
  split
  · dsimp only
    split
    · exact hP.takeSync _ _ _ _ hr (hP.kept (onCount_kept ..) hs)
    · exact hP.kept (onCount_kept ..) hs
  · split
    · exact hP.kept (onCount_kept ..) hs
    · exact hP.deliverRequest _ _ _ _ hr (hP.kept (onCount_kept ..) hs)

theorem GateClosed.deliver {s : State} (p : Port) (r : Reception) (h : Header) (b : List Byte)
    (c : Option ControlFrame) (hr : s.resetHeld = false) (hs : P s) : P (s.deliver p r h b c) := by
  unfold State.deliver
  split
  · exact hP.kept ((onCount_kept ..).trans (classify_kept ..)) hs
  · split
    · exact hP.deliverControl _ hr hs
    · exact hs
  · split
    · exact hP.kept (onCount_kept ..) hs
    · exact hP.kept (onCount_kept ..) hs
    · exact hs
  · exact hs

theorem GateClosed.endFrame {s : State} (p : Port) (r : Reception) (h : Header) (b : List Byte)
    (hr : s.resetHeld = false) (hs : P s) : P (s.endFrame p r h b) := by
  unfold State.endFrame
  have h1 := hP.kept (finishReception_kept s p) hs
  have hr1 := (finishReception_kept s p).resetHeld.trans hr
  dsimp only
  split
  · exact h1
  · split
    · exact hP.kept (onCount_kept ..) h1
    · split
      · exact hP.kept ((onCount_kept ..).trans (returnBlocks_kept ..)) h1
      · exact hP.deliver _ _ _ _ _ hr1 h1

theorem GateClosed.endCut {s : State} (p : Port) (b : List Byte) (hr : s.resetHeld = false) (hs : P s) :
    P (s.endCut p b) := by
  unfold State.endCut
  split
  · split
    · exact hP.deliverControl _ hr (hP.kept (setAux_kept ..) hs)
    · exact hs
  · exact hs

/-! ### Every command, and every step -/

theorem GateClosed.taken {s t : State} {f : State → State} (h : Machine.taken s f = .next t)
    (hf : s.resetHeld = false → P (f s)) (hs : P s) : P t := by
  rcases taken_next h with ⟨-, rfl⟩ | ⟨hr, rfl⟩
  · exact hs
  · exact hP.kept (settle_kept _) (hf hr)

/-- A condition on the gate-wide state that the operations of `GateClosed` keep is kept by every command. -/
theorem GateClosed.exec {s t : State} (c : Instr) (h : Machine.exec c s = .next t) (hs : P s) : P t := by
  have adv : ∀ n, P (s.advance n) := fun n => hP.advance n hs
  have run : ∀ v, P (s.runTo v) := fun v => hP.advance _ hs
  have start : s.resetHeld = false → P (s.runTo s.clock.cycleEnd).cycleStart := fun hr =>
    hP.cycleStart (s := s.runTo s.clock.cycleEnd) hr (run _)
  cases c
  case resetAssert =>
    simp only [Machine.exec, execResetAssert, Host.Outcome.next.injEq] at h
    subst h
    exact hP.resetAssert (hP.kept (Kept.foldl (fun t p => (abandon_kept t p).trans (cutOff_kept _ p)) _ _) hs)
  case resetRelease =>
    simp only [Machine.exec, execResetRelease, Host.Outcome.next.injEq] at h
    subst h
    exact hP.powerOn ..
  case naturalCycleStart =>
    simp only [Machine.exec, execNaturalCycleStart] at h
    exact hP.taken h start hs
  case lifetimeExpiry p =>
    simp only [Machine.exec, execLifetimeExpiry] at h
    refine hP.taken h (fun hr => ?_) hs
    split
    · exact hP.kept (Kept.trans (expirePort_kept _ _ p) (setAux_kept ..)) hs
    · split
      · exact hP.kept (expirePort_kept ..) hs
      · exact hP.kept (Kept.trans (expirePort_kept _ _ p) (setAux_kept ..)) (adv _)
  case swap =>
    simp only [Machine.exec, execSwap] at h
    refine hP.taken h (fun hr => ?_) hs
    split
    · exact start hr
    · exact hs
  case windowOpen p v =>
    simp only [Machine.exec, execWindowOpen] at h
    refine hP.taken h (fun hr => ?_) hs
    split
    · exact hP.kept (takeOpening_kept ..) (adv _)
    · exact hs
  case windowClose p v =>
    simp only [Machine.exec, execWindowClose] at h
    refine hP.taken h (fun hr => ?_) hs
    split
    · exact adv _
    · exact hs
  case missedSyncEvaluation =>
    simp only [Machine.exec, execMissedSyncEvaluation] at h
    refine hP.taken h (fun hr => ?_) hs
    split
    · split
      · exact hP.kept (setAux_kept ..) (adv _)
      · rename_i ha
        exact hP.missCycle hr (by simpa using ha) (hP.kept (setAux_kept ..) (adv _))
    · exact hs
  case frameStart p =>
    simp only [Machine.exec, execFrameStart] at h
    refine hP.taken h (fun hr => ?_) hs
    split
    · exact hP.kept (onRx_kept ..) hs
    · exact hs
  case headerDecision p x =>
    simp only [Machine.exec, execHeaderDecision] at h
    refine hP.taken h (fun hr => ?_) hs
    split
    · exact hP.kept ((onRx_kept ..).trans (decideHeader_kept ..)) (adv _)
    · exact hs
  case frameEnd p b =>
    simp only [Machine.exec, execFrameEnd] at h
    refine hP.taken h (fun hr => ?_) hs
    split
    · exact hP.endCut _ _ hr hs
    · split
      · exact hP.kept (endRunt_kept ..) (adv _)
      · exact hs
    · exact hP.endFrame _ _ _ _ hr (adv _)
    · exact hs
  case syncFrame =>
    simp only [Machine.exec, execSyncFrame] at h
    exact hP.taken h (fun hr => hP.takeSync _ _ _ _ hr hs) hs
  case dataTxEnd p =>
    simp only [Machine.exec, execDataTxEnd] at h
    refine hP.taken h (fun hr => ?_) hs
    split
    · exact hP.kept (endData_kept ..) (adv _)
    · exact hs
  case ownTxEnd =>
    simp only [Machine.exec, execOwnTxEnd] at h
    refine hP.taken h (fun hr => ?_) hs
    split
    · split
      · exact hP.warmRestart hr (hP.kept (onPort_kept ..) (adv _))
      · exact hP.kept (((onPort_kept ..).trans (offerSlot_kept ..)).trans (prompt_kept ..)) (adv _)
    · exact hs
  case syncTxEnd p =>
    simp only [Machine.exec, execSyncTxEnd] at h
    refine hP.taken h (fun hr => ?_) hs
    split
    · exact hP.kept (((onPort_kept ..).trans (onCount_kept ..)).trans (prompt_kept ..)) (adv _)
    · exact hs
  case choice p =>
    simp only [Machine.exec, execChoice] at h
    exact hP.taken h (fun _ => hP.kept (choose_kept s p) hs) hs
  case linkLoss p =>
    simp only [Machine.exec, execLinkLoss] at h
    refine hP.taken h (fun hr => ?_) hs
    split
    · split
      · exact hP.warmRestart ((loseLink_kept s p).resetHeld.trans hr) (hP.kept (loseLink_kept s p) hs)
      · exact hP.kept (loseLink_kept s p) hs
    · exact hs
  case linkReturn p =>
    simp only [Machine.exec, execLinkReturn] at h
    refine hP.taken h (fun hr => ?_) hs
    split
    · exact hs
    · exact hP.kept (((onPort_kept ..).trans (raise_kept ..)).trans (prompt_kept ..)) hs
  case drainCompletion p =>
    simp only [Machine.exec, execDrainCompletion] at h
    exact hP.taken h (fun _ => hP.kept (completeDrain_kept s p) hs) hs
  case leaseExpiry i =>
    simp only [Machine.exec, execLeaseExpiry] at h
    refine hP.taken h (fun hr => ?_) hs
    split
    · exact hs
    · split
      · exact hP.kept (raise_kept ..) (hP.endSession _ hs)
      · exact hs
  case retransmitTimerExpiry =>
    simp only [Machine.exec, execRetransmitTimerExpiry] at h
    refine hP.taken h (fun hr => ?_) hs
    split
    · split
      · unfold State.expireTimer
        split
        · exact hP.kept (setEvents_kept ..) hs
        · split
          · exact hP.loseSink _ hs
          · exact hP.kept (setEvents_kept ..) hs
      · exact hs
    · exact hs
  case deferredRetransmission =>
    simp only [Machine.exec, execDeferredRetransmission] at h
    exact hP.taken h (fun _ => hP.kept (retransmit_kept s) hs) hs
  case reportBuild =>
    simp only [Machine.exec, execReportBuild] at h
    exact hP.taken h (fun _ => hP.kept (buildReport_kept s) hs) hs
  case overflowQueued =>
    simp only [Machine.exec, execOverflowQueued] at h
    exact hP.taken h (fun _ => hP.kept (queueOverflow_kept s) hs) hs
  case warmRestart =>
    simp only [Machine.exec, execWarmRestart] at h
    refine hP.taken h (fun hr => ?_) hs
    split
    · exact hP.warmRestart hr hs
    · exact hs
  case openSession =>
    simp only [Machine.exec, execOpen] at h
    exact hP.taken h (fun hr => hP.openRequest _ _ _ hr hs) hs
  case closeSession =>
    simp only [Machine.exec, execClose] at h
    exact hP.taken h (fun hr => hP.closeRequest _ hr hs) hs
  case renew =>
    simp only [Machine.exec, execRenew] at h
    exact hP.taken h (fun hr => hP.renewRequest _ hr hs) hs
  case readIdentity =>
    simp only [Machine.exec, execReadIdentity] at h
    exact hP.taken h (fun hr => hP.readRequest _ _ _ hr hs) hs
  case readStream =>
    simp only [Machine.exec, execReadStream] at h
    exact hP.taken h (fun hr => hP.readRequest _ _ _ hr hs) hs
  case readWindow =>
    simp only [Machine.exec, execReadWindow] at h
    exact hP.taken h (fun hr => hP.readRequest _ _ _ hr hs) hs
  case readParams =>
    simp only [Machine.exec, execReadParams] at h
    exact hP.taken h (fun hr => hP.readRequest _ _ _ hr hs) hs
  case readStreamCounters =>
    simp only [Machine.exec, execReadStreamCounters] at h
    exact hP.taken h (fun hr => hP.readRequest _ _ _ hr hs) hs
  case readPort =>
    simp only [Machine.exec, execReadPort] at h
    exact hP.taken h (fun hr => hP.readPort _ _ hr hs) hs
  case readSync =>
    simp only [Machine.exec, execReadSync] at h
    exact hP.taken h (fun hr => hP.readSync _ hr hs) hs
  case readSessions =>
    simp only [Machine.exec, execReadSessions] at h
    exact hP.taken h (fun hr => hP.readRequest _ _ _ hr hs) hs
  case readEvents =>
    simp only [Machine.exec, execReadEvents] at h
    exact hP.taken h (fun hr => hP.readEvents _ hr hs) hs
  case readCommit =>
    simp only [Machine.exec, execReadCommit] at h
    exact hP.taken h (fun hr => hP.readRequest _ _ _ hr hs) hs
  case ack =>
    simp only [Machine.exec, execAck] at h
    exact hP.taken h (fun hr => hP.ackRequest _ _ hr hs) hs
  case stageStreamPut =>
    simp only [Machine.exec, execStageStreamPut] at h
    exact hP.taken h (fun hr => hP.stageRequest _ _ _ (.streamPut _) hr hs) hs
  case stageStreamDelete =>
    simp only [Machine.exec, execStageStreamDelete] at h
    exact hP.taken h (fun hr => hP.stageRequest _ _ _ (.streamDelete _) hr hs) hs
  case stageWindowPut =>
    simp only [Machine.exec, execStageWindowPut] at h
    exact hP.taken h (fun hr => hP.stageRequest _ _ _ (.windowPut _) hr hs) hs
  case stageWindowDelete =>
    simp only [Machine.exec, execStageWindowDelete] at h
    exact hP.taken h (fun hr => hP.stageRequest _ _ _ (.windowDelete _ _) hr hs) hs
  case stageWindowClearPort =>
    simp only [Machine.exec, execStageWindowClearPort] at h
    exact hP.taken h (fun hr => hP.stageRequest _ _ _ (.windowClear _) hr hs) hs
  case stageParams =>
    simp only [Machine.exec, execStageParams] at h
    exact hP.taken h (fun hr => hP.stageRequest _ _ _ (.params _) hr hs) hs
  case commit =>
    simp only [Machine.exec, execCommit] at h
    exact hP.taken h (fun hr => hP.commitRequest _ _ hr hs) hs
  case abort =>
    simp only [Machine.exec, execAbort] at h
    exact hP.taken h (fun hr => hP.abortRequest _ _ _ hr hs) hs
  case drain =>
    simp only [Machine.exec, execDrain] at h
    exact hP.taken h (fun hr => hP.drainRequest _ _ _ hr hs) hs
  case resume =>
    simp only [Machine.exec, execResume] at h
    exact hP.taken h (fun hr => hP.resumeRequest _ _ hr hs) hs
  case clearCounters =>
    simp only [Machine.exec, execClearCounters] at h
    exact hP.taken h (fun hr => hP.clearRequest _ hr hs) hs
  case restart =>
    simp only [Machine.exec, execRestart] at h
    exact hP.taken h (fun hr => hP.restartRequest _ hr hs) hs
  case unknownRequestCode =>
    simp only [Machine.exec, execUnknownRequestCode] at h
    exact hP.taken h (fun hr => hP.unknownRequest _ _ hr hs) hs

/-- A condition on the gate-wide state that the operations of `GateClosed` keep, and that does not read the queue of waiting commands, is kept by
every step. -/
theorem GateClosed.step (hq : ∀ s q, P s → P { s with pending := q }) : KeptByStep P := by
  intro s t hs h
  unfold Machine.step at h
  split at h
  · simp only [Host.Outcome.next.injEq] at h
    subst h
    unfold idleStep
    split
    · exact hs
    · split
      · exact hq _ _ (hP.advance _ hs)
      · exact hq _ _ hs
  · exact hP.exec _ h (hq _ _ hs)

end

end Sys2Proof.Machine
end

