-- ==== Sys2Proof/Laws/Ports.lean ====
section
/-! SUPPORT. What the operations on ports, queues, own frames and the frame store can do, said once for each. -/

namespace Sys2Proof.Machine

open Sys2Proof

/-! ### One port -/

/-- What choices, drain completions and the event unit's work can do to a port: take descriptors off its queues in order and count late ones,
start a frame other than a sync frame on an idle transmitter, and complete its drain. -/
structure PortFollows (u v : PortUnit) : Prop where
  link : v.link = u.link
  rx : v.rx = u.rx
  count : { v.count with late := u.count.late } = u.count
  admin : v.admin = u.admin ∨ u.admin = .draining ∧ v.admin = .drained
  tx : v.tx = u.tx ∨ u.tx = .idle ∧ ∃ f occ, v.tx = .busy f occ occ ∧ ∀ a b c, f ≠ .sync a b c
  queues : ∀ c, ∃ gone, u.queues.get c = gone ++ v.queues.get c

namespace PortFollows

theorem refl (u : PortUnit) : PortFollows u u := ⟨rfl, rfl, rfl, .inl rfl, .inl rfl, fun _ => ⟨[], rfl⟩⟩

theorem trans {u v w : PortUnit} (h : PortFollows u v) (k : PortFollows v w) : PortFollows u w := by
  refine ⟨k.link.trans h.link, k.rx.trans h.rx, ?_, ?_, ?_, ?_⟩
  · have h3 := h.count
    rw [← k.count] at h3
    exact h3
  · rcases h.admin with a | ⟨a, b⟩ <;> rcases k.admin with c | ⟨c, d⟩ <;> simp_all
  · rcases h.tx with a | ⟨a, f, o, b, b'⟩ <;> rcases k.tx with c | ⟨c, g, o', d, d'⟩
    · exact .inl (c.trans a)
    · exact .inr ⟨a.symm.trans c, g, o', d, d'⟩
    · exact .inr ⟨a, f, o, c.trans b, b'⟩
    · rw [b] at c
      cases c
  · intro c
    obtain ⟨g1, e1⟩ := h.queues c
    obtain ⟨g2, e2⟩ := k.queues c
    exact ⟨g1 ++ g2, by rw [e1, e2, List.append_assoc]⟩

end PortFollows

/-- The same of every port; the sink and the control buffer stay. -/
structure Follows (s t : State) : Prop where
  ports : ∀ p, PortFollows (s.ports.get p) (t.ports.get p)
  sink : t.events.sink = s.events.sink
  control : t.control = s.control

namespace Follows

theorem refl (s : State) : Follows s s := ⟨fun _ => .refl _, rfl, rfl⟩

theorem trans {s t u : State} (h : Follows s t) (k : Follows t u) : Follows s u :=
  ⟨fun p => (h.ports p).trans (k.ports p), k.sink.trans h.sink, k.control.trans h.control⟩

theorem foldl {α : Type} {f : State → α → State} (h : ∀ s a, Follows s (f s a)) (l : List α) (s : State) :
    Follows s (l.foldl f s) := by
  induction l generalizing s with
  | nil => exact .refl s
  | cons a l ih => exact (h s a).trans (ih _)

theorem ite {c : Prop} [Decidable c] {s t u : State} (h : Follows s t) (k : Follows s u) :
    Follows s (if c then t else u) := by
  split <;> assumption

theorem of_ports {s t : State} (hp : t.ports = s.ports) (hs : t.events.sink = s.events.sink) (hc : t.control = s.control) :
    Follows s t := ⟨fun p => by rw [hp]; exact .refl _, hs, hc⟩

theorem onPort (s : State) (p : Port) (f : PortUnit → PortUnit) (h : PortFollows (s.ports.get p) (f (s.ports.get p))) :
    Follows s (s.onPort p f) := by
  refine ⟨fun q => ?_, rfl, rfl⟩
  simp only [State.onPort_ports, PerPort.get_set]
  split
  · rename_i hq
    rw [hq]
    exact h
  · exact .refl _

end Follows

/-! ### Notices -/

/-- A raised notice leaves the sink, the report, the timer and the pool mark (R152). -/
theorem raise_rest (e : EventUnit) (k : NoticeKind) (p : Option Port) (n : Option StreamNo) (c d : Word) :
    (e.raise k p n c d).sink = e.sink ∧ (e.raise k p n c d).report = e.report ∧ (e.raise k p n c d).timer = e.timer ∧
    (e.raise k p n c d).poolMark = e.poolMark := by
  unfold EventUnit.raise
  split <;> exact ⟨rfl, rfl, rfl, rfl⟩

theorem raiseAt_follows (s : State) (k : NoticeKind) (p : Option Port) (n : Option StreamNo) (c d : Word) :
    Follows s (s.raiseAt k p n c d) := .of_ports rfl (raise_rest ..).1 rfl

/-! ### Late descriptors -/

theorem countLate_follows (s : State) (c : Configuration) (p : Port) (d : Descriptor) : Follows s (s.countLate c p d) := by
  unfold State.countLate
  have h1 : Follows s (s.release d) := .of_ports rfl rfl rfl
  have h2 := h1.trans (.onPort (s.release d) p (fun u => { u with count := { u.count with late := u.count.late + 1 } })
    ⟨rfl, rfl, rfl, .inl rfl, .inl rfl, fun _ => ⟨[], rfl⟩⟩)
  exact Follows.ite (h2.trans (.of_ports rfl rfl rfl)) h2

/-- The ports after one late descriptor is accounted: the port's LATE goes up by one (R73). -/
theorem countLate_ports (s : State) (c : Configuration) (p : Port) (d : Descriptor) : (s.countLate c p d).ports =
    s.ports.set p { s.ports.get p with count := { (s.ports.get p).count with late := (s.ports.get p).count.late + 1 } } := by
  unfold State.countLate
  dsimp only
  split <;> rfl

/-- The report of late descriptors touches the records' marks and the event unit alone (R74). -/
theorem reportLate_rest (s : State) (c : Configuration) (p : Port) (n : StreamNo) (b : Bool) (k : Word) (m : Nat) :
    (s.reportLate c p n b k m).ports = s.ports ∧ (s.reportLate c p n b k m).store = s.store ∧
    (s.reportLate c p n b k m).own = s.own ∧ (s.reportLate c p n b k m).control = s.control ∧
    (s.reportLate c p n b k m).aux = s.aux ∧ (s.reportLate c p n b k m).events.sink = s.events.sink := by
  unfold State.reportLate
  split
  · exact ⟨rfl, rfl, rfl, rfl, rfl, rfl⟩
  · split
    · exact ⟨rfl, rfl, rfl, rfl, rfl, (raise_rest ..).1⟩
    · exact ⟨rfl, rfl, rfl, rfl, rfl, rfl⟩

theorem reportLate_follows (s : State) (c : Configuration) (p : Port) (n : StreamNo) (b : Bool) (k : Word) (m : Nat) :
    Follows s (s.reportLate c p n b k m) := by
  obtain ⟨h1, -, -, h4, -, h6⟩ := reportLate_rest s c p n b k m
  exact .of_ports h1 h6 h4

/-- Accounting a list of late descriptors of a port raises its LATE by their number, and touches no other port (R73). -/
theorem countLate_foldl_ports (c : Configuration) (p : Port) (l : List Descriptor) (s : State) (q : Port) :
    (l.foldl (fun t d => t.countLate c p d) s).ports.get q =
      if q = p then
        { s.ports.get p with
          count := { (s.ports.get p).count with late := (s.ports.get p).count.late + BitVec.ofNat 32 l.length } }
      else s.ports.get q := by
  induction l generalizing s with
  | nil =>
    split
    · rename_i hq
      simp [hq]
    · rfl
  | cons d l ih =>
    simp only [List.foldl]
    rw [ih, countLate_ports]
    split
    · rename_i hq
      subst hq
      simp only [PerPort.get_set, if_true, List.length_cons]
      have : (s.ports.get q).count.late + 1 + BitVec.ofNat 32 l.length =
          (s.ports.get q).count.late + BitVec.ofNat 32 (l.length + 1) := by
        rw [BitVec.ofNat_add, BitVec.add_assoc, BitVec.add_comm (BitVec.ofNat 32 l.length)]
        rfl
      rw [this]
    · rename_i hq
      simp [hq]

theorem countLate_foldl_rest (c : Configuration) (p : Port) (l : List Descriptor) (s : State) :
    (l.foldl (fun t d => t.countLate c p d) s).own = s.own ∧ (l.foldl (fun t d => t.countLate c p d) s).control = s.control ∧
    (l.foldl (fun t d => t.countLate c p d) s).aux = s.aux ∧ (l.foldl (fun t d => t.countLate c p d) s).events = s.events := by
  induction l generalizing s with
  | nil => exact ⟨rfl, rfl, rfl, rfl⟩
  | cons d l ih =>
    simp only [List.foldl]
    obtain ⟨h1, h2, h3, h4⟩ := ih (s.countLate c p d)
    have h : (s.countLate c p d).own = s.own ∧ (s.countLate c p d).control = s.control ∧ (s.countLate c p d).aux = s.aux ∧
        (s.countLate c p d).events = s.events := by
      unfold State.countLate
      dsimp only
      split <;> exact ⟨rfl, rfl, rfl, rfl⟩
    exact ⟨h1.trans h.1, h2.trans h.2.1, h3.trans h.2.2.1, h4.trans h.2.2.2⟩

theorem reportLate_foldl_rest {α : Type} (f : State → α → State)
    (h : ∀ s a, (f s a).ports = s.ports ∧ (f s a).store = s.store ∧ (f s a).own = s.own ∧ (f s a).aux = s.aux) (l : List α)
    (s : State) : (l.foldl f s).ports = s.ports ∧ (l.foldl f s).store = s.store ∧ (l.foldl f s).own = s.own ∧
      (l.foldl f s).aux = s.aux := by
  induction l generalizing s with
  | nil => exact ⟨rfl, rfl, rfl, rfl⟩
  | cons a l ih =>
    simp only [List.foldl]
    obtain ⟨a1, a2, a3, a4⟩ := ih (f s a)
    obtain ⟨b1, b2, b3, b4⟩ := h s a
    exact ⟨a1.trans b1, a2.trans b2, a3.trans b3, a4.trans b4⟩

/-- The ports after the expiry of one egress unit: its queues keep the live descriptors, its LATE counts the others, and no other port is touched
(R73). -/
theorem expirePort_ports (s : State) (n : Word) (p q : Port) : (s.expirePort n p).ports.get q =
    if q = p then
      { s.ports.get p with
        queues := (s.ports.get p).queues.map fun x => x.filter fun d => d.live n
        count :=
          { (s.ports.get p).count with
            late := (s.ports.get p).count.late + BitVec.ofNat 32
              (((s.ports.get p).queues.map fun x => x.filter fun d => !d.live n).toList.flatten).length } }
    else s.ports.get q := by
  unfold State.expirePort
  dsimp only
  rw [(reportLate_foldl_rest _ (fun _ _ => ⟨(reportLate_rest ..).1, (reportLate_rest ..).2.1, (reportLate_rest ..).2.2.1,
    (reportLate_rest ..).2.2.2.2.1⟩) _ _).1]
  rw [countLate_foldl_ports]
  split <;> split <;> simp_all [State.prompt]

/-! ### Choices -/

theorem queues_set_follows (q : Quad (List Descriptor)) (i : Fin 4) (l : List Descriptor) (h : ∃ gone, q.get i = gone ++ l)
    (c : Fin 4) : ∃ gone, q.get c = gone ++ (q.set i l).get c := by
  rw [Quad.get_set]
  split
  · rename_i hc
    rw [hc]
    exact h
  · exact ⟨[], rfl⟩

theorem dropStale_follows (s : State) (p : Port) (c : Fin 4) : Follows s (s.dropStale p c) := by
  unfold State.dropStale
  dsimp only
  refine Follows.trans ?_ (Follows.foldl (fun _ _ => (countLate_follows ..).trans (reportLate_follows ..)) _ _)
  refine Follows.onPort _ p _ ⟨rfl, rfl, rfl, .inl rfl, .inl rfl, queues_set_follows _ _ _ ?_⟩
  exact ⟨_, (List.takeWhile_append_dropWhile (p := fun d : Descriptor => !d.live s.clock.number)).symm⟩

/-- Dropping stale heads starts no frame. -/
theorem dropStale_tx (s : State) (p q : Port) (c : Fin 4) : ((s.dropStale p c).ports.get q).tx = (s.ports.get q).tx := by
  have key : ∀ (l : List Descriptor) (t : State), ((l.foldl (fun t d =>
      (t.countLate s.cfg.active p d).reportLate s.cfg.active p d.stream d.reportLate s.clock.number 1) t).ports.get q).tx =
      (t.ports.get q).tx := by
    intro l
    induction l with
    | nil => exact fun _ => rfl
    | cons d l ih =>
      intro t
      simp only [List.foldl]
      rw [ih, (reportLate_rest ..).1, countLate_ports, PerPort.get_set]
      split
      · rename_i hq
        rw [hq]
      · rfl
  unfold State.dropStale
  dsimp only
  rw [key, State.onPort_ports, PerPort.get_set]
  split
  · rename_i hq
    rw [hq]
  · rfl

theorem tryClasses_follows (fits : Nat → Bool) (p : Port) (cs : List (Fin 4)) (s : State)
    (h : (s.ports.get p).tx = .idle) : Follows s (s.tryClasses fits p cs) := by
  induction cs generalizing s with
  | nil => exact .refl s
  | cons c cs ih =>
    have h1 := dropStale_follows s p c
    have h2 : ((s.dropStale p c).ports.get p).tx = .idle := (dropStale_tx s p p c).trans h
    unfold State.tryClasses
    dsimp only
    split
    · exact h1.trans (ih _ h2)
    · rename_i d rest hq
      split
      · exact h1.trans (Follows.onPort _ p _ ⟨rfl, rfl, rfl, .inl rfl, .inr ⟨h2, _, _, rfl, by simp⟩,
          queues_set_follows _ _ _ ⟨[d], by simp [hq]⟩⟩)
      · exact h1.trans (ih _ h2)

theorem serve_follows (s : State) (fits : Nat → Bool) (own : Bool) (cs : List (Fin 4)) (p : Port)
    (h : (s.ports.get p).tx = .idle) : Follows s (s.serve fits own cs p) := by
  unfold State.serve
  split
  · exact tryClasses_follows _ _ _ _ h
  · rename_i f rest _
    split
    · rename_i hp
      obtain ⟨rfl, -⟩ := hp
      have h0 : Follows s (s.setOwn rest) := .of_ports rfl rfl rfl
      exact h0.trans (Follows.onPort (s.setOwn rest) .t _
        ⟨rfl, rfl, rfl, .inl rfl, .inr ⟨h, _, _, rfl, by simp⟩, fun _ => ⟨[], rfl⟩⟩)
    · exact tryClasses_follows _ _ _ _ h

theorem isIdle_iff (x : Transmitter) : x.isIdle = true ↔ x = .idle := by cases x <;> simp [Transmitter.isIdle]

theorem choose_follows (s : State) (p : Port) : Follows s (s.choose p) := by
  unfold State.choose
  split
  · rename_i h
    have hi : (s.ports.get p).tx = .idle := (isIdle_iff _).1 (by simp_all)
    split
    · split
      · exact .refl s
      · exact serve_follows _ _ _ _ _ hi
    · exact serve_follows _ _ _ _ _ hi
    · exact serve_follows _ _ _ _ _ hi
  · exact .refl s

theorem chooseIfDue_follows (s : State) (p : Port) : Follows s (s.chooseIfDue p) := by
  unfold State.chooseIfDue
  split
  · have h0 : Follows s (s.setAux { s.aux with choiceDue := s.aux.choiceDue.set p false }) := .of_ports rfl rfl rfl
    exact h0.trans (choose_follows _ p)
  · exact .refl s

theorem completeDrain_follows (s : State) (p : Port) : Follows s (s.completeDrain p) := by
  unfold State.completeDrain
  dsimp only
  split
  · rename_i h
    exact (Follows.onPort _ p _ ⟨rfl, rfl, rfl, .inr ⟨h.1, rfl⟩, .inl rfl, fun _ => ⟨[], rfl⟩⟩).trans (raiseAt_follows ..)
  · exact .refl s

/-! ### Own frames and the event unit -/

/-- What an own frame's append does: the frame is the last of the own queue, and T may be asked for a choice (R78, R11). -/
theorem appendOwn_rest (s : State) (f : OwnFrame) : (s.appendOwn f).own = s.own ++ [f] ∧ (s.appendOwn f).ports = s.ports ∧
    (s.appendOwn f).store = s.store ∧ (s.appendOwn f).events = s.events ∧ (s.appendOwn f).control = s.control ∧
    (s.appendOwn f).classifier = s.classifier := by
  unfold State.appendOwn
  dsimp only
  split <;> exact ⟨rfl, rfl, rfl, rfl, rfl, rfl⟩

theorem appendOwn_follows (s : State) (f : OwnFrame) : Follows s (s.appendOwn f) := by
  obtain ⟨-, h2, -, h4, h5, -⟩ := appendOwn_rest s f
  exact .of_ports h2 (by rw [h4]) h5

theorem queueOverflow_follows (s : State) : Follows s s.queueOverflow := by
  refine .of_ports rfl ?_ rfl
  simp only [State.queueOverflow, EventUnit.queueOverflow]
  split <;> rfl

theorem retransmit_follows (s : State) : Follows s s.retransmit := by
  unfold State.retransmit
  split
  · split
    · refine Follows.trans (.of_ports ?_ ?_ ?_) (appendOwn_follows ..) <;> rfl
    · exact .refl s
  · exact .refl s

theorem buildReport_follows (s : State) : Follows s s.buildReport := by
  unfold State.buildReport
  split
  · exact .refl s
  · split
    · refine Follows.trans (.of_ports ?_ ?_ ?_) (appendOwn_follows ..) <;> rfl
    · exact .refl s

theorem eventWork_follows (s : State) : Follows s s.eventWork := by
  have h := queueOverflow_follows s
  unfold State.eventWork
  split
  · exact h.trans (.of_ports rfl rfl rfl)
  · exact (h.trans (retransmit_follows _)).trans (buildReport_follows _)

/-- Where no retransmission is ready, none is made (R156). -/
theorem retransmit_not_ready (s : State) (h : s.retransmitReady = false) : s.retransmit = s := by
  unfold State.retransmit
  split
  · rename_i hs hr
    simp only [State.retransmitReady, hs, hr, Option.isSome_some, Option.any_some, Bool.true_and] at h
    exact if_neg fun hc => by simp [hc] at h
  · rfl

/-- Where no report is ready, none is built (R155). -/
theorem buildReport_not_ready (s : State) (h : s.reportReady = false) : s.buildReport = s := by
  unfold State.buildReport
  split
  · rfl
  · rename_i hs
    refine if_neg fun hc => ?_
    obtain ⟨hr, hu, hf⟩ := hc
    simp [State.reportReady, hs, hr, hu, hf] at h

/-- After a freed slot the event unit's work appends nothing and builds nothing: the slot is on offer (R79, log entry 27). -/
theorem eventWork_of_freed (s : State) (h : s.aux.slotFreed = true) :
    s.eventWork.own = s.own ∧ s.eventWork.events = s.queueOverflow.events ∧ s.eventWork.ports = s.ports ∧
      s.eventWork.aux = { s.aux with slotFreed := false } := by
  simp only [State.eventWork, h, if_true]
  exact ⟨rfl, rfl, rfl, rfl⟩

/-! ### Frame store (R67) -/

/-- A handed-back reference moves blocks from stored frames to the pool and loses none. -/
theorem releaseIn_blocks (ref : Nat) (fs : List StoredFrame) :
    (releaseIn ref fs).2 + ((releaseIn ref fs).1.map (·.blocks)).sum = (fs.map (·.blocks)).sum := by
  induction fs with
  | nil => rfl
  | cons f fs ih =>
    unfold releaseIn
    split
    · split <;> simp
    · simp only [List.map_cons, List.sum_cons]
      omega

theorem release_blocks (x : FrameStore) (ref : Nat) :
    (x.release ref).free + ((x.release ref).frames.map (·.blocks)).sum = x.free + (x.frames.map (·.blocks)).sum := by
  have := releaseIn_blocks ref x.frames
  simp only [FrameStore.release]
  omega

/-- A new frame's reference is one that no stored frame has. -/
theorem freshRef_new (x : FrameStore) (f : StoredFrame) (h : f ∈ x.frames) : f.ref ≠ x.freshRef := by
  have key : ∀ (l : List Nat) (a n : Nat), n ≤ a ∨ n ∈ l → n ≤ l.foldl max a := by
    intro l
    induction l with
    | nil => intro a n hn; simpa using hn
    | cons b l ih =>
      intro a n hn
      refine ih (max a b) n ?_
      rcases hn with hn | hn
      · exact .inl (by omega)
      · rcases List.mem_cons.1 hn with rfl | hn
        · exact .inl (by omega)
        · exact .inr hn
  have := key (x.frames.map (·.ref)) 0 f.ref (.inr (List.mem_map.2 ⟨f, h, rfl⟩))
  simp only [FrameStore.freshRef]
  omega

/-! ### Flushes, cut-offs and abandoned receptions -/

/-- The ports after a flush of one port's class queues (R76). -/
theorem flushQueues_ports (s : State) (p : Port) :
    (s.flushQueues p).ports = s.ports.set p { s.ports.get p with queues := Quad.fill [] } := by
  have key : ∀ (l : List Descriptor) (t : State), (l.foldl (fun t d => t.release d) t).ports = t.ports := by
    intro l
    induction l with
    | nil => exact fun _ => rfl
    | cons d l ih => exact fun t => ih _
  unfold State.flushQueues
  rw [key]
  rfl

/-- A transmission that is cut off leaves an idle transmitter, and a data frame's reference goes back (R9, R72). -/
theorem cutOff_rest (s : State) (p : Port) : (s.cutOff p).ports = s.ports.set p { s.ports.get p with tx := .idle } ∧
    (s.cutOff p).store = (match (s.ports.get p).tx with | .busy (.data d) _ _ => s.store.release d.frame | _ => s.store) ∧
    (s.cutOff p).own = s.own ∧ (s.cutOff p).events = s.events ∧ (s.cutOff p).control = s.control := by
  unfold State.cutOff
  cases h : (s.ports.get p).tx with
  | idle => exact ⟨rfl, rfl, rfl, rfl, rfl⟩
  | busy f _ _ => cases f <;> exact ⟨rfl, rfl, rfl, rfl, rfl⟩

/-- An abandoned reception leaves an idle receiver, its blocks go back, and on T the control buffer is empty (R66, R117). -/
theorem abandon_rest (s : State) (p : Port) : (s.abandon p).ports = s.ports.set p { s.ports.get p with rx := .rest } ∧
    (s.abandon p).store = { s.store with free := s.store.free + (s.ports.get p).rx.held } ∧ (s.abandon p).own = s.own ∧
    (s.abandon p).events = s.events ∧ (s.abandon p).control = (if p = .t then none else s.control) := by
  unfold State.abandon
  dsimp only
  split <;> exact ⟨rfl, rfl, rfl, rfl, rfl⟩

end Sys2Proof.Machine
end

