-- ==== Sys2Proof/Laws/Sessions.lean ====
section
/-! SUPPORT. What the operations on sessions do: renewal, recording, ends and openings. -/

namespace Sys2Proof.Machine

open Sys2Proof

/-- What the operations on sessions leave alone. -/
structure SessionKept (s t : State) : Prop where
  resetHeld : t.resetHeld = s.resetHeld
  lock : t.lock = s.lock
  straps : t.straps = s.straps
  clock : t.clock = s.clock
  sync : t.sync = s.sync
  trunkCount : t.trunkCount = s.trunkCount
  pending : t.pending = s.pending

theorem SessionKept.refl (s : State) : SessionKept s s := ⟨rfl, rfl, rfl, rfl, rfl, rfl, rfl⟩

theorem SessionKept.trans {s t u : State} (h : SessionKept s t) (k : SessionKept t u) : SessionKept s u :=
  ⟨k.1.trans h.1, k.2.trans h.2, k.3.trans h.3, k.4.trans h.4, k.5.trans h.5, k.6.trans h.6, k.7.trans h.7⟩

theorem SessionKept.of_kept {s t : State} (h : Kept s t) : SessionKept s t :=
  ⟨h.resetHeld, h.lock, h.straps, h.clock, h.sync, h.trunkCount, h.pending⟩

/-! ### Slots -/

theorem sessionSlot_none {q : Quad (Option Session)} {n : Byte} (h : sessionSlot q n = none) (i : Fin 4) (x : Session)
    (hx : q.get i = some x) : x.station ≠ n := by
  have := List.find?_eq_none.1 h i (by fin_cases i <;> simp)
  simpa [hx] using this

theorem freeSlot_some {q : Quad (Option Session)} {i : Fin 4} (h : freeSlot q = some i) : q.get i = none := by
  simpa using List.find?_some h

/-- The free slot taken is the lowest-numbered one (R133). -/
theorem freeSlot_lowest {q : Quad (Option Session)} {i : Fin 4} (h : freeSlot q = some i) (j : Fin 4) (hj : j < i) :
    q.get j ≠ none := by
  intro hn
  unfold freeSlot at h
  fin_cases i <;> fin_cases j <;> simp_all [List.find?] <;> (repeat' split at h) <;> simp_all

theorem onSession_get (q : Quad (Option Session)) (n : Byte) (f : Session → Session) (i : Fin 4) :
    (onSession q n f).get i = (q.get i).map fun y => if y.station = n then f y else y := by
  simp [onSession]

/-! ### Renewal and recording (R134, R140) -/

theorem renewLease_kept (s : State) (n : Byte) : SessionKept s (s.renewLease n) ∧ (s.renewLease n).cfg = s.cfg ∧
    (s.renewLease n).ports = s.ports ∧ (s.renewLease n).own = s.own ∧ (s.renewLease n).store = s.store ∧
    (s.renewLease n).events = s.events ∧ (s.renewLease n).classifier = s.classifier :=
  ⟨⟨rfl, rfl, rfl, rfl, rfl, rfl, rfl⟩, rfl, rfl, rfl, rfl, rfl, rfl⟩

theorem record_kept (s : State) (h : RequestHead) (b : List Byte) : SessionKept s (s.record h b) ∧
    (s.record h b).cfg = s.cfg ∧ (s.record h b).ports = s.ports ∧ (s.record h b).own = s.own ∧
    (s.record h b).store = s.store ∧ (s.record h b).events = s.events ∧
    (s.record h b).classifier = s.classifier :=
  ⟨⟨rfl, rfl, rfl, rfl, rfl, rfl, rfl⟩, rfl, rfl, rfl, rfl, rfl, rfl⟩

theorem loseSink_kept (s : State) (n : Byte) : SessionKept s (s.loseSink n) ∧ (s.loseSink n).cfg = s.cfg ∧
    (s.loseSink n).ports = s.ports ∧ (s.loseSink n).own = s.own ∧ (s.loseSink n).store = s.store :=
  ⟨⟨rfl, rfl, rfl, rfl, rfl, rfl, rfl⟩, rfl, rfl, rfl, rfl⟩

/-! ### The end of a session (R138) -/

/-- The configuration unit when a session of this mode ends (R60). -/
def ConfigUnit.atSessionEnd (c : ConfigUnit) (m : SessionMode) : ConfigUnit :=
  if m = .edit ∧ c.armed = none then { c with staged := c.active, edited := false } else c

/-- Everything the end of a session does to the gate-wide state and the queues. -/
theorem endSession_spec (s : State) (i : Fin 4) : SessionKept s (s.endSession i) ∧
    (s.endSession i).mgmt = { s.mgmt with slots := s.mgmt.slots.set i none } ∧
    (s.endSession i).cfg = (match s.mgmt.slots.get i with | none => s.cfg | some x => s.cfg.atSessionEnd x.mode) ∧
    (s.endSession i).ports = s.ports ∧ (s.endSession i).own = s.own ∧ (s.endSession i).store = s.store ∧
    (s.endSession i).classifier = s.classifier := by
  unfold State.endSession
  cases hx : s.mgmt.slots.get i with
  | none =>
    have : s.mgmt.slots.set i none = s.mgmt.slots := by
      refine Quad.ext_get fun j => ?_
      rw [Quad.get_set]
      split
      · rename_i h
        rw [h, hx]
      · rfl
    exact ⟨.refl s, by rw [this], rfl, rfl, rfl, rfl, rfl⟩
  | some x =>
    unfold ConfigUnit.atSessionEnd
    dsimp only
    have h1 : (s.setSlots (s.mgmt.slots.set i none)).cfg = s.cfg := rfl
    split <;> split <;> exact ⟨⟨rfl, rfl, rfl, rfl, rfl, rfl, rfl⟩, rfl, rfl, rfl, rfl, rfl, rfl⟩

/-- The sink flags after a station becomes the sink. -/
theorem setSink_spec (s : State) (n : Byte) : SessionKept s (s.setSink n) ∧ (s.setSink n).cfg = s.cfg ∧
    (s.setSink n).mgmt =
      { s.mgmt with slots := s.mgmt.slots.map fun x => x.map fun y => { y with sink := y.station = n } } ∧
    (s.setSink n).ports = s.ports ∧ (s.setSink n).own = s.own ∧ (s.setSink n).store = s.store ∧
    (s.setSink n).events.sink = some n := by
  unfold State.setSink
  dsimp only
  split
  · rename_i h
    exact ⟨⟨rfl, rfl, rfl, rfl, rfl, rfl, rfl⟩, rfl, rfl, rfl, rfl, rfl, h⟩
  · exact ⟨⟨rfl, rfl, rfl, rfl, rfl, rfl, rfl⟩, rfl, rfl, rfl, rfl, rfl, rfl⟩

/-! ### Answers -/

/-- An answer that is no restart response changes sessions by its record alone, and queues, counters and notices by the response alone. -/
theorem answer_unmarked (s : State) (h : RequestHead) (c : Byte) (r : Reply) (b : Bool) (hm : r.marked = false) :
    s.answer h c r b = (if b then s.record h (responsePayload c r) else s).respond h (responsePayload c r) false := by
  simp [State.answer, hm]

theorem answer_unmarked_kept (s : State) (h : RequestHead) (c : Byte) (r : Reply) (b : Bool) (hm : r.marked = false) :
    SessionKept s (s.answer h c r b) ∧ (s.answer h c r b).cfg = s.cfg ∧
    (s.answer h c r b).mgmt = (if b then s.record h (responsePayload c r) else s).mgmt := by
  rw [answer_unmarked s h c r b hm]
  have hk := respond_kept (if b then s.record h (responsePayload c r) else s) h (responsePayload c r) false
  refine ⟨?_, ?_, hk.mgmt⟩
  · refine SessionKept.trans ?_ (.of_kept hk)
    split
    · exact (record_kept s h _).1
    · exact .refl s
  · rw [hk.cfg]
    split <;> rfl

end Sys2Proof.Machine
end

