-- ==== Sys2Proof/Laws/Requests.lean ====
section
/-! SUPPORT. What serving a request comes to: the renewal and the look-up before it, a request that stands in turn, and the judgements of the
staging requests. -/

namespace Sys2Proof.Machine

open Sys2Proof

/-- A command taken by a gate that is out of reset answers the settled effect. -/
theorem taken_running {s : State} (h : s.resetHeld = false) (f : State → State) : taken s f = .next (settle (f s)) := by
  simp [taken, h]

/-! ### Look-ups across a renewal (R134) -/

/-- A change of sessions that keeps their stations keeps where each station's session is. -/
theorem sessionSlot_onSession (q : Quad (Option Session)) (m n : Byte) (f : Session → Session)
    (hf : ∀ x, (f x).station = x.station) : sessionSlot (onSession q m f) n = sessionSlot q n := by
  unfold sessionSlot
  congr 1
  funext i
  simp only [onSession, Quad.get_map]
  cases q.get i with
  | none => rfl
  | some x =>
    simp only [Option.map_some, Option.any_some]
    split <;> simp [hf]

theorem sessionSlot_renewLease (s : State) (m n : Byte) :
    sessionSlot (s.renewLease m).mgmt.slots n = sessionSlot s.mgmt.slots n :=
  sessionSlot_onSession s.mgmt.slots m n (fun y => { y with remaining := y.lease }) fun _ => rfl

/-- After a station's renewal its session has its whole lease left, and is otherwise as it was. -/
theorem sessionOf_renewLease (s : State) (n : Byte) : sessionOf (s.renewLease n).mgmt.slots n =
    (sessionOf s.mgmt.slots n).map fun x => { x with remaining := x.lease } := by
  simp only [sessionOf, sessionSlot_renewLease]
  cases h : sessionSlot s.mgmt.slots n with
  | none => rfl
  | some i =>
    obtain ⟨x, hx, hn⟩ := sessionSlot_some h
    simp [State.renewLease, onSession, hx, hn]

theorem freeSlot_renewLease (s : State) (n : Byte) : freeSlot (s.renewLease n).mgmt.slots = freeSlot s.mgmt.slots := by
  unfold freeSlot
  congr 1
  funext i
  simp [State.renewLease, onSession_get]

/-! ### A request in turn (R134, R140) -/

theorem badLength_of_inTurn {s : State} {r : RequestHead} {n : Nat} {x : Session} (h : s.InTurn r n x) (hn : n ≤ 126) :
    badLength r = false := by
  simp only [badLength, h.length, Bool.or_eq_false_iff, decide_eq_false_iff_not]
  omega

/-- A request in turn, of the mode it needs, is carried out on the renewed state, answered, and recorded. -/
theorem serveRequest_inTurn {s : State} {r : RequestHead} {n : Nat} {x : Session} (h : s.InTurn r n x) (hn : n ≤ 126)
    (code : Byte) (edit : Bool) (he : edit = true → x.mode = .edit) (act : State → State × Reply) :
    s.serveRequest r code edit (bodyLength r n) act =
      (act (s.renewLease r.source)).1.answer r code (act (s.renewLease r.source)).2 true := by
  have hb := badLength_of_inTurn h hn
  have hl : bodyLength r n = true := by simp [bodyLength, h.length]
  have hne : ¬(r.tag = x.lastSequence) := by
    rw [h.tag]
    intro hh
    bv_omega
  unfold State.serveRequest
  simp only [h.source, hb, sessionOf_renewLease, h.session, Option.map_some, hl, if_true]
  rw [if_neg (by simp), if_neg hne, if_neg (by simp [h.tag])]
  simp only [Bool.not_true, Bool.false_eq_true, if_false]
  rw [if_neg]
  rintro ⟨h1, h2⟩
  exact h2 (he h1)

/-! ### The judgements of staging (R45 to R50) -/

/-- No staging request's reply is marked as the restart response (R145). -/
theorem StagingJudge.unmarked {j : Configuration → Judgement} (h : StagingJudge j) (c : Configuration) :
    (j c).answer.marked = false := by
  cases h
  case streamPut b =>
    unfold judgeStreamPut
    split
    · rfl
    · dsimp only
      split <;> [rfl; (split <;> [rfl; (split <;> rfl)])]
  case streamDelete n =>
    unfold judgeStreamDelete
    split
    · rfl
    · split <;> rfl
  case windowPut b =>
    unfold judgeWindowPut
    split
    · rfl
    · dsimp only
      split <;> [rfl; (split <;> [rfl; (split <;> [rfl; (split <;> [rfl; (split <;> rfl)])])])]
  case windowDelete p n =>
    unfold judgeWindowDelete
    split
    · rfl
    · split <;> rfl
  case windowClear p =>
    unfold judgeWindowClear
    split <;> rfl
  case params b =>
    unfold judgeParams
    split <;> rfl

/-- What a judgement leaves of the configuration unit: all of it where it writes nothing, and all but the staged copy and the edited mark where it
does (R45). -/
theorem stage_rest (c : ConfigUnit) (j : Judgement) : (c.stage j).active = c.active ∧ (c.stage j).generation = c.generation ∧
    (c.stage j).armed = c.armed ∧
    (c.stage j = c ∨ ∃ x, j.written = some x ∧ (c.stage j).staged = x ∧ (c.stage j).edited = true) := by
  unfold ConfigUnit.stage
  split
  · rename_i x hx
    exact ⟨rfl, rfl, rfl, .inr ⟨x, hx, rfl, rfl⟩⟩
  · exact ⟨rfl, rfl, rfl, .inl rfl⟩

/-! ### The listed table (R23, R46) -/

/-- The entry of a stream number after an entry is put in its place. -/
theorem streamEntry_put (e : StreamEntry) (l : List StreamEntry) (n : StreamNo) :
    (putStream e l).find? (fun x => x.stream = n) =
      if e.stream = n then some e else l.find? fun x => x.stream = n := by
  induction l with
  | nil => simp [putStream, List.find?]
  | cons x xs ih =>
    unfold putStream
    split
    · rename_i hx
      by_cases hn : e.stream = n
      · simp [List.find?, hn]
      · have : ¬x.stream = n := by rw [hx]; exact hn
        simp [List.find?, hn, this]
    · rename_i hx
      split
      · by_cases hn : e.stream = n
        · simp [List.find?, hn]
        · simp [List.find?, hn]
      · by_cases hxn : x.stream = n
        · have : ¬e.stream = n := fun hh => hx (hxn.trans hh.symm)
          simp [List.find?, hxn, this]
        · simp only [List.find?, hxn, decide_false]
          rw [ih]

/-- What the end of a frame at an idle receiver does: nothing, unless it is the request frame that a warm restart of this instant cut off on T (R147,
log entry 25). -/
theorem endCut_cases (s : State) (p : Port) (rest : List Byte) : s.endCut p rest = s ∨
    ∃ x, s.aux.cutRequest = some x ∧ p = .t ∧ s.ports.t.link = true ∧ x.elapsed = s.clock.elapsed ∧
      10 + rest.length ≤ x.bytes ∧ endFailure x.header x.check none rest = none ∧
      s.endCut p rest =
        (s.setAux { s.aux with cutRequest := none }).deliverControl
          { x.frame with payload := (rest.take (rest.length - 4)).take controlPayload } := by
  unfold State.endCut
  split
  · rename_i x hx
    split
    · rename_i h
      exact .inr ⟨x, hx, h.1, h.2.1, h.2.2.1, h.2.2.2.1, h.2.2.2.2, rfl⟩
    · exact .inl rfl
  · exact .inl rfl

end Sys2Proof.Machine
end

