-- ==== Sys2Proof/Laws/Timing.lean ====
section
/-! SUPPORT. What the operations of the cycle timer unit do: the enforcing condition, changes of the sync state, steps, missed cycles and natural
cycle starts. -/

namespace Sys2Proof.Machine

open Sys2Proof

/-- What a change of the sync state, or a re-evaluation of the enforcing condition, leaves alone. -/
structure TimingKept (s t : State) : Prop where
  resetHeld : t.resetHeld = s.resetHeld
  straps : t.straps = s.straps
  cfg : t.cfg = s.cfg
  mgmt : t.mgmt = s.mgmt
  ports : t.ports = s.ports
  store : t.store = s.store
  own : t.own = s.own
  control : t.control = s.control
  pending : t.pending = s.pending

theorem TimingKept.refl (s : State) : TimingKept s s := ⟨rfl, rfl, rfl, rfl, rfl, rfl, rfl, rfl, rfl⟩

theorem TimingKept.trans {s t u : State} (h : TimingKept s t) (k : TimingKept t u) : TimingKept s u :=
  ⟨k.1.trans h.1, k.2.trans h.2, k.3.trans h.3, k.4.trans h.4, k.5.trans h.5, k.6.trans h.6, k.7.trans h.7,
    k.8.trans h.8, k.9.trans h.9⟩

/-! ### The enforcing condition (R99) -/

theorem reevaluate_timing (s : State) : TimingKept s s.reevaluate ∧ s.reevaluate.sync = s.sync ∧
    s.reevaluate.clock = s.clock ∧ s.reevaluate.events = s.events ∧ s.reevaluate.classifier = s.classifier ∧
    s.reevaluate.trunkCount = s.trunkCount := by
  unfold State.reevaluate
  split <;> exact ⟨⟨rfl, rfl, rfl, rfl, rfl, rfl, rfl, rfl, rfl⟩, rfl, rfl, rfl, rfl, rfl⟩

/-- After a re-evaluation LOCK shows the enforcing condition. -/
theorem reevaluate_lock (s : State) : s.reevaluate.lock = s.enforcing := by
  unfold State.reevaluate
  split
  · rename_i h
    exact h.symm
  · rfl

theorem reevaluate_enforcing (s : State) : s.reevaluate.enforcing = s.enforcing := by
  obtain ⟨h, hs, -⟩ := reevaluate_timing s
  simp [State.enforcing, h.cfg, hs]

/-- A re-evaluation that finds the condition unchanged changes nothing. -/
theorem reevaluate_same {s : State} (h : s.enforcing = s.lock) : s.reevaluate = s := by simp [State.reevaluate, h]

/-! ### Changes of the sync state (R96) -/

theorem setSyncState_same {s : State} {x : SyncState} (h : s.sync.state = x) : s.setSyncState x = s := by
  simp [State.setSyncState, h]

theorem setSyncState_timing (s : State) (x : SyncState) : TimingKept s (s.setSyncState x) ∧
    (s.setSyncState x).sync = { s.sync with state := x } ∧ (s.setSyncState x).clock = s.clock ∧
    (s.setSyncState x).classifier = s.classifier ∧ (s.setSyncState x).trunkCount = s.trunkCount := by
  unfold State.setSyncState
  split
  · rename_i h
    subst h
    exact ⟨.refl s, rfl, rfl, rfl, rfl⟩
  · obtain ⟨h, hs, hc, -, hk, ht⟩ := reevaluate_timing
      ((s.setSync { s.sync with state := x }).raise .syncState none none ((syncStateByte x).setWidth 32))
    exact ⟨⟨h.1, h.2, h.3, h.4, h.5, h.6, h.7, h.8, h.9⟩, hs, hc, hk, ht⟩

/-- A change of the sync state to another raises one SYNC_STATE notice at the current cycle number. -/
theorem setSyncState_events (s : State) (x : SyncState) : (s.setSyncState x).events =
    if s.sync.state = x then s.events
    else s.events.raise .syncState none none s.clock.number ((syncStateByte x).setWidth 32) := by
  unfold State.setSyncState
  split
  · rfl
  · exact (reevaluate_timing _).2.2.2.1

/-- Where LOCK showed the enforcing condition before a change of the sync state, it shows it after. -/
theorem setSyncState_lock {s : State} (x : SyncState) (h : s.lock = s.enforcing) :
    (s.setSyncState x).lock = (s.setSyncState x).enforcing := by
  unfold State.setSyncState
  split
  · exact h
  · rw [reevaluate_lock, reevaluate_enforcing]

/-- LOCK after a change of the sync state to another shows the new condition, whatever it showed before. -/
theorem setSyncState_lock_new {s : State} {x : SyncState} (h : s.sync.state ≠ x) :
    (s.setSyncState x).lock = (s.setSyncState x).enforcing := by
  unfold State.setSyncState
  rw [if_neg h, reevaluate_lock, reevaluate_enforcing]

/-! ### Steps and missed cycles (R90, R95) -/

theorem stepTo_timing (s : State) (n : Word) : TimingKept s (s.stepTo n) ∧
    (s.stepTo n).sync =
      { s.sync with state := .acquiring, good := 1, missed := 0,
                    mismatchMark := if n = s.clock.number then s.sync.mismatchMark else none } ∧
    (s.stepTo n).clock =
      { s.clock with timer := s.cfg.active.params.syncOffset + Config.syncFrameTime, number := n,
                     cycleEnd := s.cfg.active.params.cycleLength } ∧
    (s.stepTo n).trunkCount = { s.trunkCount with steps := s.trunkCount.steps + 1 } := by
  unfold State.stepTo
  dsimp only
  refine ⟨?_, ?_, ?_, ?_⟩
  · refine TimingKept.trans ?_ (setSyncState_timing _ _).1
    exact ⟨rfl, rfl, rfl, rfl, rfl, rfl, rfl, rfl, rfl⟩
  · rw [(setSyncState_timing _ _).2.1]
    rfl
  · rw [(setSyncState_timing _ _).2.2.1]
    rfl
  · rw [(setSyncState_timing _ _).2.2.2.2]
    rfl

theorem loseSync_timing (s : State) : TimingKept s s.loseSync ∧
    s.loseSync.sync = { s.sync with state := .unsynced, good := 0, missed := 0 } ∧ s.loseSync.clock = s.clock ∧
    s.loseSync.trunkCount = s.trunkCount := by
  unfold State.loseSync
  obtain ⟨h, hs, hc, -, ht⟩ := setSyncState_timing (s.setSync { s.sync with good := 0, missed := 0 }) .unsynced
  exact ⟨⟨h.1, h.2, h.3, h.4, h.5, h.6, h.7, h.8, h.9⟩, hs, hc, ht⟩

theorem missCycle_timing (s : State) : TimingKept s s.missCycle ∧ s.missCycle.clock = s.clock := by
  unfold State.missCycle
  dsimp only
  have h1 := loseSync_timing (s.setTrunk { s.trunkCount with missed := s.trunkCount.missed + 1 })
  split
  · exact ⟨.refl s, rfl⟩
  · exact ⟨⟨h1.1.1, h1.1.2, h1.1.3, h1.1.4, h1.1.5, h1.1.6, h1.1.7, h1.1.8, h1.1.9⟩, h1.2.2.1⟩
  · split
    · exact ⟨⟨h1.1.1, h1.1.2, h1.1.3, h1.1.4, h1.1.5, h1.1.6, h1.1.7, h1.1.8, h1.1.9⟩, h1.2.2.1⟩
    · have h2 := setSyncState_timing
        ((s.setTrunk { s.trunkCount with missed := s.trunkCount.missed + 1 }).setSync { s.sync with missed := 1 })
        .holdover
      exact ⟨⟨h2.1.1, h2.1.2, h2.1.3, h2.1.4, h2.1.5, h2.1.6, h2.1.7, h2.1.8, h2.1.9⟩, h2.2.2.1⟩
  · split
    · exact ⟨⟨h1.1.1, h1.1.2, h1.1.3, h1.1.4, h1.1.5, h1.1.6, h1.1.7, h1.1.8, h1.1.9⟩, h1.2.2.1⟩
    · exact ⟨⟨rfl, rfl, rfl, rfl, rfl, rfl, rfl, rfl, rfl⟩, rfl⟩

/-- A missed cycle's sync record (R92 to R95). -/
theorem missCycle_sync (s : State) : s.missCycle.sync =
    match s.sync.state with
    | .unsynced => s.sync
    | .acquiring => { s.sync with state := .unsynced, good := 0, missed := 0 }
    | .locked =>
      if s.cfg.active.params.holdoverLimit ≤ 1 then { s.sync with state := .unsynced, good := 0, missed := 0 }
      else { s.sync with state := .holdover, missed := 1 }
    | .holdover =>
      if s.cfg.active.params.holdoverLimit ≤ s.sync.missed + 1 then
        { s.sync with state := .unsynced, good := 0, missed := 0 }
      else { s.sync with missed := s.sync.missed + 1 } := by
  unfold State.missCycle
  cases h : s.sync.state <;> dsimp only
  · rw [(loseSync_timing _).2.1]
    rfl
  · split
    · rw [(loseSync_timing _).2.1]
      rfl
    · rw [(setSyncState_timing _ _).2.1]
      rfl
  · split
    · rw [(loseSync_timing _).2.1]
      rfl
    · rfl

theorem missCycle_lock {s : State} (h : s.lock = s.enforcing) : s.missCycle.lock = s.missCycle.enforcing := by
  unfold State.missCycle State.loseSync
  dsimp only
  split
  · exact h
  · exact setSyncState_lock _ h
  · split <;> exact setSyncState_lock _ h
  · split
    · exact setSyncState_lock _ h
    · exact h

/-! ### Accepted syncs (R88 to R94) -/

theorem actOnSync_timing (s : State) (e : Int) (n : Word) : TimingKept s (s.actOnSync e n) := by
  unfold State.actOnSync
  dsimp only
  have h1 := (stepTo_timing s n).1
  split
  · exact h1
  · split
    · exact h1
    · split
      · exact TimingKept.trans (t := s.setSync { s.sync with good := s.sync.good + 1 })
          ⟨rfl, rfl, rfl, rfl, rfl, rfl, rfl, rfl, rfl⟩ (setSyncState_timing _ _).1
      · exact ⟨rfl, rfl, rfl, rfl, rfl, rfl, rfl, rfl, rfl⟩
  · split
    · exact h1
    · exact ⟨rfl, rfl, rfl, rfl, rfl, rfl, rfl, rfl, rfl⟩
  · split
    · exact h1
    · exact TimingKept.trans (t := (s.slew e).setSync { (s.slew e).sync with missed := 0 })
        ⟨rfl, rfl, rfl, rfl, rfl, rfl, rfl, rfl, rfl⟩ (setSyncState_timing _ _).1

theorem takeSync_timing (s : State) (a : Nat) (b : Half) (n l : Word) : TimingKept s (s.takeSync a b n l) := by
  unfold State.takeSync
  dsimp only
  have hk : ∀ k, TimingKept s (s.setTrunk k) := fun _ => ⟨rfl, rfl, rfl, rfl, rfl, rfl, rfl, rfl, rfl⟩
  split
  · exact hk _
  · split
    · unfold State.mismatchSync
      dsimp only
      split <;> exact ⟨rfl, rfl, rfl, rfl, rfl, rfl, rfl, rfl, rfl⟩
    · split
      · exact hk _
      · split
        · exact hk _
        · unfold State.acceptSync
          refine TimingKept.trans ?_ (actOnSync_timing _ _ _)
          exact ⟨rfl, rfl, rfl, rfl, rfl, rfl, rfl, rfl, rfl⟩

theorem actOnSync_lock {s : State} (e : Int) (n : Word) (h : s.lock = s.enforcing) :
    (s.actOnSync e n).lock = (s.actOnSync e n).enforcing := by
  have h1 : (s.stepTo n).lock = (s.stepTo n).enforcing := setSyncState_lock _ h
  unfold State.actOnSync
  dsimp only
  split
  · exact h1
  · split
    · exact h1
    · split
      · exact setSyncState_lock _ h
      · exact h
  · split
    · exact h1
    · exact h
  · split
    · exact h1
    · exact setSyncState_lock _ h

theorem takeSync_lock {s : State} (a : Nat) (b : Half) (n l : Word) (h : s.lock = s.enforcing) :
    (s.takeSync a b n l).lock = (s.takeSync a b n l).enforcing := by
  unfold State.takeSync
  dsimp only
  split
  · exact h
  · split
    · unfold State.mismatchSync
      dsimp only
      split <;> exact h
    · split
      · exact h
      · split
        · exact h
        · refine actOnSync_lock _ _ ?_
          exact h

/-! ### Natural cycle starts (R84) -/

/-- The configuration unit after a natural cycle start of number `n` (R54). -/
def ConfigUnit.atStart (c : ConfigUnit) (n : Word) : ConfigUnit :=
  if swapDue c n then
    { c with active := c.staged, generation := nextGeneration c.generation, armed := none, edited := false }
  else c

/-- The turn of the cycle and the swap that may be due at it. -/
def State.turned (s : State) : State :=
  if swapDue s.turnCycle.cfg s.turnCycle.clock.number then s.turnCycle.takeSwap else s.turnCycle

/-- The gate-wide state after the turn of the cycle and a due swap. -/
theorem turned_timing (s : State) :
    s.turned.resetHeld = s.resetHeld ∧ s.turned.straps = s.straps ∧ s.turned.mgmt = s.mgmt ∧
    s.turned.pending = s.pending ∧ s.turned.trunkCount = s.trunkCount ∧
    s.turned.cfg = s.cfg.atStart (s.clock.number + 1) ∧
    s.turned.sync = { s.sync with accepted := false, mismatchMark := none } ∧
    s.turned.clock = { s.clock with timer := 0, number := s.clock.number + 1 } := by
  unfold State.turned ConfigUnit.atStart
  have hn : s.turnCycle.clock.number = s.clock.number + 1 := rfl
  have hc : s.turnCycle.cfg = s.cfg := rfl
  rw [hn, hc]
  split <;> exact ⟨rfl, rfl, rfl, rfl, rfl, rfl, rfl, rfl⟩

/-- After the turn of the cycle and a due swap, and the work on budgets and marks, the rest of a natural cycle start touches ports, queues, store,
records and notices alone. -/
theorem cycleStart_kept (s : State) : Kept s.turned.beginCycle.reevaluate s.cycleStart := by
  unfold State.cycleStart
  refine Kept.trans ?_ (Kept.foldl (fun t p => openAtZero_kept t p) _ _)
  refine Kept.trans ?_ (leaveExpiries_kept _)
  exact Kept.ite (Kept.foldl (fun t p => offerSync_kept t p) _ _) (.refl _)

/-- What the work on budgets and marks at a natural cycle start does to the gate-wide state. -/
theorem beginCycle_timing (s : State) :
    s.beginCycle.resetHeld = s.resetHeld ∧ s.beginCycle.straps = s.straps ∧ s.beginCycle.mgmt = s.mgmt ∧
    s.beginCycle.pending = s.pending ∧ s.beginCycle.trunkCount = s.trunkCount ∧ s.beginCycle.cfg = s.cfg ∧
    s.beginCycle.sync = s.sync ∧
    s.beginCycle.clock = { s.clock with cycleEnd := s.cfg.active.params.cycleLength } :=
  ⟨rfl, rfl, rfl, rfl, rfl, rfl, rfl, rfl⟩

/-- The configuration a natural cycle start makes active is the one of the cycle that begins. -/
theorem atStart_active (c : ConfigUnit) (n : Word) : (c.atStart n).active = cycleConfig c n := by
  unfold ConfigUnit.atStart cycleConfig
  split <;> rfl

/-- The gate-wide state after a natural cycle start. -/
theorem cycleStart_timing (s : State) :
    s.cycleStart.resetHeld = s.resetHeld ∧ s.cycleStart.straps = s.straps ∧ s.cycleStart.mgmt = s.mgmt ∧
    s.cycleStart.pending = s.pending ∧ s.cycleStart.trunkCount = s.trunkCount ∧
    s.cycleStart.cfg = s.cfg.atStart (s.clock.number + 1) ∧
    s.cycleStart.sync = { s.sync with accepted := false, mismatchMark := none } ∧
    s.cycleStart.clock =
      { s.clock with timer := 0, number := s.clock.number + 1,
                     cycleEnd := (cycleConfig s.cfg (s.clock.number + 1)).params.cycleLength } ∧
    s.cycleStart.lock = s.cycleStart.enforcing := by
  have hk := cycleStart_kept s
  obtain ⟨a1, a2, a3, a4, a5, a6, a7, a8⟩ := turned_timing s
  obtain ⟨b1, b2, b3, b4, b5, b6, b7, b8⟩ := beginCycle_timing s.turned
  obtain ⟨hr, c1, c2, -, -, c3⟩ := reevaluate_timing s.turned.beginCycle
  refine ⟨?_, ?_, ?_, ?_, ?_, ?_, ?_, ?_, ?_⟩
  · rw [hk.resetHeld, hr.resetHeld, b1, a1]
  · rw [hk.straps, hr.straps, b2, a2]
  · rw [hk.mgmt, hr.mgmt, b3, a3]
  · rw [hk.pending, hr.pending, b4, a4]
  · rw [hk.trunkCount, c3, b5, a5]
  · rw [hk.cfg, hr.cfg, b6, a6]
  · rw [hk.sync, c1, b7, a7]
  · rw [hk.clock, c2, b8, a6, a8, atStart_active]
  · rw [hk.lock, hk.enforcing, reevaluate_lock, reevaluate_enforcing]

/-! ### The notices and marks of sync (R26, R96) -/

/-- A step raises a SYNC_STATE notice with the new number where the state changes (log entry 26). -/
theorem stepTo_events (s : State) (n : Word) : (s.stepTo n).events =
    if s.sync.state = .acquiring then s.events
    else s.events.raise .syncState none none n ((syncStateByte .acquiring).setWidth 32) := by
  unfold State.stepTo
  dsimp only
  rw [setSyncState_events]
  rfl

/-- A step that changes the number clears every report mark, and no other does. -/
theorem stepTo_classifier (s : State) (n : Word) : (s.stepTo n).classifier =
    if n = s.clock.number then s.classifier else s.classifier.clearMarks := by
  unfold State.stepTo
  dsimp only
  rw [(setSyncState_timing _ _).2.2.2.1]
  rfl

/-- A missed cycle raises a notice exactly where it changes the sync state. -/
theorem missCycle_events (s : State) : s.missCycle.events =
    if s.missCycle.sync.state = s.sync.state then s.events
    else s.events.raise .syncState none none s.clock.number ((syncStateByte s.missCycle.sync.state).setWidth 32) := by
  rw [missCycle_sync]
  unfold State.missCycle State.loseSync
  cases h : s.sync.state <;> dsimp only
  · rw [if_pos h]
  · rw [setSyncState_events]; simp [h]
  · split
    · rw [setSyncState_events]; simp [h]
    · rw [setSyncState_events]; simp [h]
  · split
    · rw [setSyncState_events]; simp [h]
    · simp [h]

/-- An accepted sync raises a notice exactly where it changes the sync state. -/
theorem actOnSync_events (s : State) (e : Int) (n : Word) : (s.actOnSync e n).events =
    if (s.actOnSync e n).sync.state = s.sync.state then s.events
    else
      s.events.raise .syncState none none (s.actOnSync e n).clock.number
        ((syncStateByte (s.actOnSync e n).sync.state).setWidth 32) := by
  have hstep : (s.stepTo n).events =
      if (s.stepTo n).sync.state = s.sync.state then s.events
      else
        s.events.raise .syncState none none (s.stepTo n).clock.number ((syncStateByte (s.stepTo n).sync.state).setWidth 32) := by
    rw [stepTo_events, (stepTo_timing s n).2.1, (stepTo_timing s n).2.2.1]
    simp only [eq_comm (a := s.sync.state)]
  unfold State.actOnSync
  dsimp only
  split
  · exact hstep
  · split
    · exact hstep
    · split
      · rw [setSyncState_events, (setSyncState_timing _ _).2.1, (setSyncState_timing _ _).2.2.1]
        simp only [eq_comm (a := SyncState.locked)]
        rfl
      · simp
  · split
    · exact hstep
    · simp [State.slew]
  · split
    · exact hstep
    · rw [setSyncState_events, (setSyncState_timing _ _).2.1, (setSyncState_timing _ _).2.2.1]
      simp only [eq_comm (a := SyncState.locked)]
      rfl

/-- An accepted sync clears the report marks exactly where it changes the number. -/
theorem actOnSync_classifier (s : State) (e : Int) (n : Word) : (s.actOnSync e n).classifier =
    if (s.actOnSync e n).clock.number = s.clock.number then s.classifier else s.classifier.clearMarks := by
  have hstep : (s.stepTo n).classifier =
      if (s.stepTo n).clock.number = s.clock.number then s.classifier else s.classifier.clearMarks := by
    rw [stepTo_classifier, (stepTo_timing s n).2.2.1]
  unfold State.actOnSync
  dsimp only
  split
  · exact hstep
  · split
    · exact hstep
    · split
      · rw [(setSyncState_timing _ _).2.2.2.1, (setSyncState_timing _ _).2.2.1]
        simp
      · simp
  · split
    · exact hstep
    · simp [State.slew]
  · split
    · exact hstep
    · rw [(setSyncState_timing _ _).2.2.2.1, (setSyncState_timing _ _).2.2.1]
      simp [State.slew]

/-! ### Openings and expiry at a natural cycle start (R3, R75) -/

/-- What the opening of a window does: its instant is kept, and while enforcing the port is asked for a choice. -/
theorem takeOpening_spec (s : State) (p : Port) :
    (s.takeOpening p).ports = s.ports ∧ (s.takeOpening p).store = s.store ∧ (s.takeOpening p).own = s.own ∧
    (s.takeOpening p).events = s.events ∧ (s.takeOpening p).classifier = s.classifier ∧
    (s.takeOpening p).aux =
      { s.aux with
        openedAt := s.aux.openedAt.set p (some s.clock.elapsed)
        choiceDue := if s.enforcing then s.aux.choiceDue.set p true else s.aux.choiceDue } := by
  unfold State.takeOpening
  dsimp only
  have h : (s.setAux { s.aux with openedAt := s.aux.openedAt.set p (some s.clock.elapsed) }).enforcing = s.enforcing := rfl
  rw [h]
  split <;> exact ⟨rfl, rfl, rfl, rfl, rfl, rfl⟩

/-- A cycle start leaves the expiry of each port for which it was not taken ahead, with its number. -/
theorem leaveExpiries_get (s : State) (p : Port) :
    s.leaveExpiries.aux.expiryTaken.get p = false ∧
    s.leaveExpiries.aux.expiryLeft.get p = if s.aux.expiryTaken.get p = true then none else some s.clock.number := by
  cases p <;> exact ⟨rfl, rfl⟩

end Sys2Proof.Machine
end

