-- ==== Sys2Proof/Tests/Slice0.lean ====
section
/-! SUPPORT. Small tests, each of one step, with expected values from the manual's examples or worked by hand from its rules; and the witnesses: states and
operands that meet the hypotheses of the statements. -/

namespace Sys2Proof.Tests

/- The tests are checked one after another: each is a short kernel evaluation. -/
set_option Elab.async false

open Sys2Proof Sys2Proof.Machine

/-! ### The states the tests start from -/

/-- Whether an outcome is a next state with a property. -/
def leads (o : Host.Outcome State Fault Refusal) (p : State → Bool) : Bool :=
  match o with
  | .next t => p t
  | _ => false

/-- Five links UP, station 5, policy PASS, right after reset. -/
def up : State := .powerOn 5 false (PerPort.fill true) []

/-- The EDIT session of station 12 in slot 0. -/
def editor : Session := ⟨12, .edit, 2000, 900, 7, [0x03, 0x00, 0x07, 0xD0], false⟩

/-- The gate with that session. -/
def editing : State := up.setSlots (up.mgmt.slots.set 0 (some editor))

/-- The head of station 12's next request, with a body of this length. -/
def next (n : Nat) : RequestHead := ⟨12, 8, 0, BitVec.ofNat 16 (n + 2)⟩

/-- Stream 44: from T to B1 in class 1, up to 300 bytes, budget 2, lifetime 1, reporting all three outcomes. -/
def stream44 : StreamEntry := ⟨44, .t, ⟨false, false, true, false, false⟩, 1, 300, 2, 1, ⟨true, true, true⟩⟩

/-- The example schedule of chapter 1. -/
def exampleWindows : List Window :=
  [⟨.t, 1000, 1500, ⟨true, true, false, false⟩⟩, ⟨.t, 8000, 3000, ⟨false, false, true, true⟩⟩,
    ⟨.b0, 32, 1968, ⟨true, false, false, false⟩⟩, ⟨.b0, 4000, 1000, ⟨false, true, true, true⟩⟩,
    ⟨.b1, 2000, 400, ⟨true, true, true, false⟩⟩, ⟨.b1, 9000, 3492, ⟨false, false, false, true⟩⟩]

/-- A configuration with that schedule and stream 44. -/
def plan : Configuration := ⟨[stream44], exampleWindows, .powerOn .pass⟩

/-- Generation 2 active, LOCKED and enforcing, cycle 3,000. -/
def enforcing : State :=
  { editing with
    lock := true, sync := ⟨.locked, 3, 0, false, some 0, none⟩, clock := ⟨0, 3000, 12500, 0⟩
    cfg := ⟨plan, plan, 2, none, false⟩
    classifier := { editing.classifier with records := [freshRecord stream44] } }

/-- The same at a timer value. -/
def at' (v : Nat) : State := enforcing.setClock ⟨v, 3000, 12500, 0⟩

/-- The same with a commit armed for the next cycle. -/
def armed : State := enforcing.setCfg { enforcing.cfg with armed := some 3001 }

/-- A descriptor of stream 44 with this reference, payload length, class and deadline. -/
def desc (ref n : Nat) (c : Fin 4) (deadline : Word) : Descriptor := ⟨ref, 44, n, c, deadline, true⟩

/-- A gate whose B1 holds C (300 bytes) and D (40) in class 1 and F (20) in class 2, as in the example of chapter 1, at a timer value. -/
def queued (v : Nat) : State :=
  { (at' v).onPort .b1 fun u =>
      { u with queues := ⟨[], [desc 1 300 1 3000, desc 2 40 1 3000], [desc 3 20 2 3000], []⟩ } with
    store := ⟨480, [⟨1, [], 20, 1⟩, ⟨2, [], 6, 1⟩, ⟨3, [], 6, 1⟩]⟩ }

/-- A gate whose B1 sends frame A (100 bytes) with 24 byte times left. -/
def sending : State := (at' 2100).onPort .b1 fun u => { u with tx := .busy (.data (desc 4 100 0 3000)) 124 24 }

/-- A gate with eight own frames waiting, so that no slot is free. -/
def full : State := enforcing.setOwn (List.replicate 8 ⟨.response, 12, 5, 1, [0x03, 0x00], false⟩)

/-- Ten UNSENT notices, 40 to 49, and station 12 as the sink (the example of chapter 9). -/
def notices (sent : Nat) (report : Option Report) (timer : Option Nat) : State :=
  editing.setEvents
    { editing.events with
      queue := (List.range 10).map fun i => ⟨⟨BitVec.ofNat 16 (40 + i), .linkChange, some .b0, none, 0, 1⟩, i < sent⟩
      lastAssigned := 49, sink := some 12, report := report, timer := timer }

/-- A header of station 9 to station 5. -/
def header (kind hop : Byte) (stream length : Half) : Header := ⟨5, 9, kind, hop, stream, length, 8⟩

/-- A gate that has just taken the header of a frame on a port. -/
def received (s : State) (p : Port) (x : RxState) (d : Option Disposition) (held : Nat) (h : Header) : State :=
  s.onPort p fun u => { u with rx := ⟨x, none, some h, d, held, 10, crcBytes crcPreset (headerBytes h)⟩ }

/-! ### Well-formedness: each check refuses an ill-formed command -/

theorem test_wf_source : (Instr.renew ⟨0, 1, 0, 2⟩).wellFormed = false ∧ (Instr.renew ⟨255, 1, 0, 2⟩).wellFormed = false ∧
    (Instr.renew ⟨254, 1, 0, 2⟩).wellFormed = true := by decide
theorem test_wf_coded : (Instr.ack ⟨12, 1, 0, 1⟩ 3).wellFormed = false := by decide
theorem test_wf_selected : (Instr.readSync ⟨12, 1, 0, 2⟩).wellFormed = false := by decide
theorem test_wf_unknown : (Instr.unknownRequestCode ⟨12, 1, 0, 2⟩ 0x03).wellFormed = false ∧
    (Instr.unknownRequestCode ⟨12, 1, 0, 2⟩ 0x04).wellFormed = true := by decide
theorem test_wf_start : (Instr.windowOpen .b0 12499961).wellFormed = false ∧
    (Instr.windowOpen .b0 12499960).wellFormed = true := by decide
theorem test_wf_stop : (Instr.windowClose .b0 31).wellFormed = false := by decide
theorem test_wf_capture : (Instr.syncFrame 12500008 8 0 12500).wellFormed = false := by decide
theorem test_wf_sync_end : (Instr.syncTxEnd .t).wellFormed = false := by decide
theorem test_wf_drain : (Instr.drainCompletion .t).wellFormed = false := by decide

/-! ### The model's clock and queue -/

theorem test_front_of_queue : leads (step { up with pending := [.frameStart .b0, .choice .t] }) (fun t =>
    t.pending = [.choice .t] ∧ t.ports.b0.rx.state = .header) = true := by decide +kernel
theorem test_idle_byte_time : leads (step (at' 1999)) (fun t =>
    t.clock.timer = 2000 ∧ t.pending = [.windowClose .b0 2000, .windowOpen .b1 2000]) = true := by decide +kernel
theorem test_idle_due : leads (step (at' 12500)) (fun t => t.clock.timer = 12500 ∧ t.pending = [.naturalCycleStart]) = true := by
  decide +kernel
theorem witness_EmptyQueueStepLetsAByteTimePass : (at' 1999).pending = [] ∧ (at' 1999).resetHeld = false ∧ (at' 1999).dueEvents = [] ∧
    (at' 12500).pending = [] ∧ (at' 12500).dueEvents ≠ [] ∧
    leads (step (editing.setClock ⟨1998, 0, 12500, 24998⟩)) (fun t => (t.mgmt.slots.get 0).map (·.remaining) = some 900) = true ∧
    leads (step (editing.setClock ⟨1998, 0, 12500, 24999⟩)) (fun t => (t.mgmt.slots.get 0).map (·.remaining) = some 899) = true ∧
    leads (step (received sending .b0 .store none 1 (header 1 3 44 2))) (fun t =>
      t.ports.b1.tx = .busy (.data (desc 4 100 0 3000)) 124 23 ∧ t.ports.b0.rx.bytes = 11) = true ∧ ({ up with resetHeld := true } : State).pending = [] := by
  decide +kernel
theorem witness_StepRunsFrontCommand : ({ up with pending := [.choice .t] } : State).pending = .choice .t :: [] := rfl
theorem test_no_word_spells : decodeTableWord 32 0 = none := by decide

/-! ### Reset -/

theorem test_reset_assert : leads (exec .resetAssert sending) (fun t =>
    t.resetHeld ∧ t.lock = false ∧ t.ports.b1.tx = .idle) = true := by decide +kernel
theorem test_reset_release : leads (exec (.resetRelease 255 true (PerPort.fill true)) sending) (fun t =>
    t.straps = ⟨254, .block⟩ ∧ t.clock.cycleEnd = 12500 ∧ t.store.free = 512 ∧ t.ports.b1.link) = true := by decide +kernel
theorem witness_ResetHoldsAndReleases : ({ up with resetHeld := true } : State).resetHeld = true ∧
    Instr.swap ≠ .resetAssert ∧ (∀ a b c, Instr.swap ≠ .resetRelease a b c) := by simp

/-! ### The cycle -/

theorem test_cycle_start : leads (exec .naturalCycleStart (at' 100)) (fun t =>
    t.clock = ⟨0, 3001, 12500, 12400⟩ ∧ t.ports.b0.tx = .busy (.sync 5 3001 12500) 32 32) = true := by decide +kernel
theorem test_cycle_number_wraps : leads (exec .naturalCycleStart (up.setClock ⟨0, 0xFFFFFFFF, 12500, 0⟩)) (fun t =>
    t.clock.number = 0 ∧ t.ports.b0.tx = .idle) = true := by decide +kernel
theorem test_sync_skipped : leads (exec .naturalCycleStart ((at' 12490).onPort .b1 fun u =>
    { u with tx := .busy (.data (desc 4 100 0 3000)) 124 50 })) (fun t =>
    t.ports.b1.count.syncSkipped = 1 ∧ t.ports.b1.tx = .busy (.data (desc 4 100 0 3000)) 124 40 ∧
      t.ports.b2.count.syncSkipped = 0) = true := by decide +kernel

theorem plan_ok : plan.Ok := by
  simp only [Configuration.Ok, StreamEntry.ok, Window.ok, Params.ok]
  decide +kernel

/-- The power-on configuration keeps the limits, so a gate can be in generation 0. -/
theorem powerOn_ok (p : Policy) : (Configuration.powerOn p).Ok := by
  simp [Configuration.Ok, Configuration.powerOn, Params.ok, Params.powerOn]

theorem witness_ConfigInv : enforcing.ConfigInv :=
  ⟨plan_ok, plan_ok, by decide +kernel, fun _ => by decide +kernel, fun h => absurd h (by decide +kernel)⟩

theorem witness_armed_ConfigInv : armed.ConfigInv :=
  ⟨plan_ok, plan_ok, fun _ => by decide +kernel, fun _ => by decide +kernel, fun h => absurd h (by decide +kernel)⟩

theorem record44 (s : State) (h : s.classifier.records = [freshRecord stream44]) (hc : s.cfg.active = plan) : s.RecordInv := by
  refine ⟨by rw [h, hc]; rfl, fun r hr e he => ?_⟩
  rw [h, List.mem_singleton] at hr
  subst hr
  have : streamEntry plan (freshRecord stream44).stream = some stream44 := by decide +kernel
  rw [hc, this] at he
  cases he
  exact Nat.le_refl _

theorem witness_CycleStartKeepsTheRecordsInStep : enforcing.ConfigInv ∧ armed.ConfigInv ∧ enforcing.RecordInv ∧ armed.RecordInv ∧
    enforcing.resetHeld = false ∧ leads (exec .naturalCycleStart enforcing) (fun _ => true) = true :=
  ⟨witness_ConfigInv, witness_armed_ConfigInv, record44 _ rfl rfl, record44 _ rfl rfl, rfl, by decide +kernel⟩

theorem witness_NaturalCycleStartTurnsTheCycle : (at' 100).resetHeld = false ∧ armed.resetHeld = false ∧ armed.cfg.armed = some 3001 ∧
    earlier (armed.clock.number + 1) (3001 : Word) = false := by decide +kernel

theorem witness_BranchSyncFramesOnlyWhileEnforcing : enforcing.resetHeld = false ∧ leads (exec .naturalCycleStart enforcing) (fun t =>
    t.ports.b0.tx = .busy (.sync 5 3001 12500) 32 32 ∧ t.lock) = true ∧ enforcing.ports.b0.tx = .idle ∧
    enforcing.ports.b0.link = true ∧ enforcing.ports.b0.admin = .opened := by
  decide +kernel

theorem test_swap : leads (exec .swap armed) (fun t => t.cfg.generation = 3 ∧ t.cfg.armed = none) = true := by decide +kernel
theorem test_swap_generation_wraps : leads (exec .swap (armed.setCfg { armed.cfg with generation := 65535 })) (fun t =>
    t.cfg.generation = 1) = true := by decide +kernel
theorem witness_SwapInstallsThePendingConfiguration : armed.resetHeld = false ∧ swapDue armed.cfg (armed.clock.number + 1) = true ∧
    leads (exec .swap armed) (fun t => t.events.queue.map (·.notice) = [⟨1, .commitDone, none, none, 3001, 3⟩]) = true := by decide +kernel

/-- The example of chapter 4: P and R stay, Q, S and U go, and LATE grows by 3. -/
theorem test_lifetime_expiry : leads (exec (.lifetimeExpiry .b1)
    ((enforcing.setClock ⟨0, 1300, 12500, 0⟩).onPort .b1 fun u =>
      { u with queues := Quad.fill [] |>.set 1 [desc 1 9 1 1300, desc 2 9 1 1299, desc 3 9 1 1301, desc 4 9 1 1299, desc 5 9 1 1299],
               tx := .busy (.data (desc 6 9 1 1299)) 33 5 })) (fun t =>
    (t.ports.b1.queues.get 1).map (·.frame) = [1, 3] ∧ t.ports.b1.count.late = 3 ∧
      t.events.queue.map (·.notice) = [⟨1, .streamLate, some .b1, some 44, 1300, 3⟩]) = true := by decide +kernel
theorem witness_LifetimeExpiryRemovesLateDescriptors : (queued 0).resetHeld = false ∧ (queued 0).clock.timer = 0 ∧ (queued 1).clock.timer ≠ 0 ∧
    earlier (3000 : Word) 3001 = true ∧
    leads (exec .naturalCycleStart (queued 12500)) (fun t =>
      t.aux.expiryLeft.b1 = some 3001 ∧ t.ports.b1.queues = (queued 12500).ports.b1.queues ∧ t.ports.b1.count.late = 0 ∧
      leads (exec (.lifetimeExpiry .b1) t) (fun u =>
        u.aux.expiryLeft.b1 = none ∧ u.ports.b1.queues = Quad.fill [] ∧ u.ports.b1.count.late = 3 ∧ u.store = ⟨512, []⟩ ∧
        u.classifier.records.map (fun r => (r.late, r.lateMark)) = [(3, some 3001)] ∧
        u.events.queue.map (·.notice) = [⟨1, .streamLate, some .b1, some 44, 3001, 3⟩])) = true := by decide +kernel
/-- R75, the choice first: at the start of cycle 3,001 a choice in PASS removes the stale heads, each by itself (STREAM_LATE with 1, the next one suppressed), and
starts none; the expiry of that start then finds the queues empty. -/
theorem test_choice_before_expiry : leads (exec .naturalCycleStart ({ queued 12500 with lock := false, sync := .initial } : State)) (fun t =>
    leads (exec (.choice .b1) t) (fun u =>
      u.ports.b1.queues = Quad.fill [] ∧ u.ports.b1.count.late = 3 ∧ u.ports.b1.tx = .idle ∧
      u.events.queue.map (·.notice) = [⟨1, .streamLate, some .b1, some 44, 3001, 1⟩] ∧
      leads (exec (.lifetimeExpiry .b1) u) (fun v => v.ports.b1.count.late = 3 ∧ v.events.queue.length = 1))) = true := by decide +kernel

/-- The example of chapter 1 with C at the head of class 1: at 2,000 its 324 byte times fit before 2,400. -/
theorem test_window_open : leads (exec (.windowOpen .b1 2000) (queued 1990)) (fun t =>
    t.clock.timer = 2000 ∧ t.ports.b1.tx = .busy (.data (desc 1 300 1 3000)) 324 324) = true := by decide +kernel
theorem test_window_close : leads (exec (.windowClose .b1 2400) (queued 2390)) (fun t =>
    t.clock.timer = 2400 ∧ t.openWindow .b1 = none ∧ t.ports.b1.tx = .idle) = true := by decide +kernel
theorem witness_WindowsOpenAndClose : (queued 2000).resetHeld = false ∧ (queued 2000).ConfigInv ∧
    ⟨.b1, 2000, 400, ⟨true, true, true, false⟩⟩ ∈ (queued 2000).cfg.active.windows ∧ (queued 2000).clock.timer ≤ 2000 ∧
    (2000 : Nat) < (queued 2000).clock.cycleEnd ∧ (queued 2400).clock.timer ≤ 2400 ∧ (2400 : Nat) ≤ (queued 2400).clock.cycleEnd :=
  ⟨rfl, ⟨plan_ok, plan_ok, by decide +kernel, fun _ => by decide +kernel, fun h => absurd h (by decide +kernel)⟩,
    by decide +kernel, by decide +kernel, by decide +kernel, by decide +kernel, by decide +kernel⟩

/-- R103: B0's window starts at 32, where a branch sync frame ends. The end taken first starts nothing; the opening after it does. -/
def atOpening : State :=
  { (at' 10).onPort .b0 fun u =>
      { u with queues := u.queues.set 0 [desc 1 20 0 3000], tx := .busy (.sync 5 3000 12500) 32 22 } with
    store := ⟨511, [⟨1, [], 1, 1⟩]⟩ }
theorem test_sync_end_before_opening : leads (exec (.syncTxEnd .b0) atOpening) (fun t =>
    t.clock.timer = 32 ∧ t.ports.b0.tx = .idle ∧
      leads (exec (.windowOpen .b0 32) t) (fun u => u.ports.b0.tx = .busy (.data (desc 1 20 0 3000)) 44 44)) = true := by
  decide +kernel

/-! ### Synchronisation -/

theorem test_missed_locked : leads (exec .missedSyncEvaluation (at' 100)) (fun t =>
    t.clock.timer = 800 ∧ t.sync.state = .holdover ∧ t.sync.missed = 1 ∧ t.trunkCount.missed = 1 ∧ t.lock) = true := by decide +kernel
theorem test_missed_limit : leads (exec .missedSyncEvaluation ((at' 100).setSync ⟨.holdover, 3, 7, false, some 0, none⟩)) (fun t =>
    t.sync.state = .unsynced ∧ t.sync.good = 0 ∧ t.lock = false) = true := by decide +kernel
/-- The hypotheses of the evaluation at its value 800, for each sync state and on both sides of the holdover limit 8. -/
theorem witness_MissedSyncEvaluationActsByState : (at' 800).resetHeld = false ∧ (at' 800).aux.evaluated = false ∧ (at' 800).clock.timer ≤ 512 + 256 + 32 ∧
    512 + 256 + 32 < (at' 800).clock.cycleEnd ∧ (at' 800).cfg.active.params = .powerOn .pass ∧ (at' 800).sync.state = .locked ∧
    ((at' 800).setSync ⟨.holdover, 3, 6, false, none, none⟩).sync.accepted = false ∧
    leads (exec .missedSyncEvaluation (at' 800)) (fun t =>
      t.events.queue.map (·.notice) = [⟨1, .syncState, none, none, 3000, 3⟩]) = true ∧
    leads (exec .missedSyncEvaluation ((at' 800).setSync ⟨.holdover, 3, 6, false, none, none⟩)) (fun t => t.events.queue = []) = true ∧
    ((at' 800).setSync ⟨.acquiring, 2, 0, false, none, none⟩).sync.state = .acquiring ∧ up.sync.state = .unsynced := by decide +kernel

/-- The first row of the example of chapter 5: in gate cycle 41 a capture of 9,000 steps the timer to 534. -/
theorem test_sync_step : leads (exec (.syncFrame 9000 8 77003 12500) (up.setClock ⟨9022, 41, 12500, 0⟩)) (fun t =>
    t.clock.timer = 534 ∧ t.clock.number = 77003 ∧ t.sync.state = .acquiring ∧ t.sync.good = 1 ∧
      t.sync.lastError = some 8488) = true := by decide +kernel
/-- The sixth row: LOCKED, a capture of 515 slews the cycle end to 12,503. -/
theorem test_sync_slew : leads (exec (.syncFrame 515 8 77006 12500)
    (enforcing.setClock ⟨537, 77006, 12500, 0⟩)) (fun t => t.clock.cycleEnd = 12503 ∧ t.sync.state = .locked) = true := by
  decide +kernel
/-- Each outcome of the judging steps, the window's edges 256 and 768 among them. -/
theorem witness_SyncFrameIsJudgedInOrder : up.resetHeld = false ∧ enforcing.cfg.active.params = .powerOn .pass ∧
    leads (exec (.syncFrame 512 9 3000 12500) enforcing) (fun t => t.trunkCount.format = 1) = true ∧
    leads (exec (.syncFrame 512 8 3000 12501) enforcing) (fun t =>
      t.trunkCount.mismatch = 1 ∧ t.events.queue.map (·.notice) = [⟨1, .cycleMismatch, some .t, none, 3000, 12501⟩]) = true ∧
    leads (exec (.syncFrame 512 8 3000 12501) (enforcing.setSync ⟨.locked, 3, 0, false, some 0, some 3000⟩)) (fun t =>
      t.trunkCount.mismatch = 1 ∧ t.events.queue = []) = true ∧
    leads (exec (.syncFrame 255 8 3000 12500) enforcing) (fun t => t.trunkCount.outside = 1) = true ∧
    leads (exec (.syncFrame 256 8 3000 12500) enforcing) (fun t => t.trunkCount.accepted = 1) = true ∧
    leads (exec (.syncFrame 768 8 3000 12500) enforcing) (fun t => t.trunkCount.accepted = 1) = true ∧
    leads (exec (.syncFrame 769 8 3000 12500) enforcing) (fun t => t.trunkCount.outside = 1) = true ∧
    leads (exec (.syncFrame 512 8 3000 12500) (enforcing.setSync ⟨.locked, 3, 0, true, some 0, none⟩)) (fun t =>
      t.trunkCount.duplicate = 1) = true := by decide +kernel
/-- LOCKED steps past the threshold 64 and slews at it; ACQUIRING counts at the tolerance 4 and steps past it. -/
theorem witness_AcceptedSyncActsByState : enforcing.sync.accepted = false ∧ (12500 : Word).toNat = (Params.powerOn .pass).cycleLength ∧
    leads (exec (.syncFrame 576 8 3000 12500) enforcing) (fun t => t.clock.cycleEnd = 12508 ∧ t.trunkCount.steps = 0) = true ∧
    leads (exec (.syncFrame 577 8 3000 12500) enforcing) (fun t => t.sync.state = .acquiring ∧ t.trunkCount.steps = 1) = true ∧
    leads (exec (.syncFrame 512 8 77006 12500) (enforcing.setRecords [{ freshRecord stream44 with lateMark := some 3000 }])) (fun t =>
      t.events.queue.map (·.notice) = [⟨1, .syncState, none, none, 77006, 1⟩] ∧
        t.classifier.records.map (·.lateMark) = [none]) = true ∧
    leads (exec (.syncFrame 516 8 0 12500) (up.setSync ⟨.acquiring, 2, 0, false, none, none⟩)) (fun t => t.sync.state = .locked) =
      true ∧
    leads (exec (.syncFrame 517 8 0 12500) (up.setSync ⟨.acquiring, 2, 0, false, none, none⟩)) (fun t => t.sync.good = 1) = true ∧
    leads (exec (.syncFrame 512 8 3000 12500) (enforcing.setSync ⟨.holdover, 3, 5, false, none, none⟩)) (fun t =>
      t.sync.state = .locked ∧ t.sync.missed = 0) = true := by decide +kernel

/-! ### Reception -/

theorem test_frame_start : leads (exec (.frameStart .t) (at' 515)) (fun t =>
    t.ports.t.rx.state = .header ∧ t.ports.t.rx.capture = some 515) = true := by decide +kernel
theorem test_frame_start_down : leads (exec (.frameStart .b0) (up.onPort .b0 fun u => { u with link := false })) (fun t =>
    t.ports.b0.rx.state = .idle) = true := by decide +kernel
theorem witness_FrameStartBeginsAReception : up.resetHeld = false ∧ (up.ports.get .t).link = true ∧ (up.ports.get .t).rx.state = .idle := by
  decide +kernel

/-- A gate in HEADER on a port. -/
def inHeader (s : State) (p : Port) : State := s.onRx p fun _ => Reception.begin (some 500)

/-- R65: 100 bytes declared need two blocks. -/
theorem test_header_store : leads (exec (.headerDecision .b1 (header 1 3 44 100)) (inHeader up .b1)) (fun t =>
    t.ports.b1.rx.state = .store ∧ t.ports.b1.rx.held = 2 ∧ t.store.free = 510 ∧ t.clock.timer = 10) = true := by decide +kernel
theorem test_header_control : leads (exec (.headerDecision .t (header 3 16 0 4)) (inHeader up .t)) (fun t =>
    t.ports.t.rx.state = .control ∧ t.control.isSome) = true := by decide +kernel
/-- Every outcome of the header decision: the longest length kept and the shortest refused; a drained port; an unknown kind; a trunk and a branch SYNC; a branch
request for this gate; a claim that fails by one block. -/
theorem witness_HeaderDecisionRoutesTheFrame : (inHeader up .t).resetHeld = false ∧ ((inHeader up .t).ports.get .t).rx.state = .header ∧
    leads (exec (.headerDecision .b1 (header 1 3 44 1024)) (inHeader up .b1)) (fun t => t.ports.b1.rx.held = 17) = true ∧
    leads (exec (.headerDecision .b1 (header 1 3 44 1025)) (inHeader up .b1)) (fun t => t.ports.b1.count.rxLength = 1) = true ∧
    leads (exec (.headerDecision .b1 (header 1 3 44 1024)) ((inHeader up .b1).onPort .b1 fun u => { u with admin := .drained }))
      (fun t => t.ports.b1.rx.disposition = some .drained) = true ∧
    leads (exec (.headerDecision .b1 (header 6 3 44 10)) (inHeader up .b1)) (fun t =>
      t.ports.b1.rx.disposition = some .unknownKind) = true ∧
    leads (exec (.headerDecision .t (header 2 3 44 10)) (inHeader up .t)) (fun t => (t.control.bind (·.capture)) = some 500) = true ∧
    leads (exec (.headerDecision .b1 (header 2 3 44 10)) (inHeader up .b1)) (fun t =>
      t.ports.b1.rx.disposition = some .branchSync) = true ∧
    leads (exec (.headerDecision .b1 (header 3 3 44 10)) (inHeader up .b1)) (fun t =>
      t.ports.b1.rx.disposition = some .branchMgmt) = true ∧
    leads (exec (.headerDecision .b1 (header 1 3 44 100)) ((inHeader up .b1).setStore ⟨1, []⟩)) (fun t =>
      t.ports.b1.rx.state = .dropped ∧ t.ports.b1.count.rxNoBuffer = 1 ∧ t.store.free = 1 ∧
        t.events.queue.map (·.notice) = [⟨1, .poolExhausted, some .b1, none, 0, 1⟩] ∧ t.events.poolMark = some 0) = true := by
  decide +kernel

/-- The first header of the tests as bytes, field by field (11.1). -/
theorem test_header_bytes : headerBytes (header 1 3 44 4) = [5, 9, 1, 3, 0, 44, 0, 4, 0, 8] := by decide

/-- The check value of the nine bytes "123456789" for R166's generator and preset, complemented and sent most significant byte first: FC891918, the widely
published value of the CRC-32 without reflection. -/
theorem test_crc : frameCheck [0x31, 0x32, 0x33, 0x34, 0x35, 0x36, 0x37, 0x38, 0x39] = [0xFC, 0x89, 0x19, 0x18] := by decide +kernel
theorem test_crc_remainder : crcBytes crcPreset ([1, 2, 3] ++ frameCheck [1, 2, 3]) = 0xC704DD7B := by decide +kernel

/-- A frame of stream 44 with two bytes of payload arrives on T. -/
def arriving : State := (received enforcing .t .store none 1 (header 1 3 44 2)).setStore ⟨511, []⟩

/-- The bytes that end it. -/
def ending : List Byte := [0xAB, 0xCD] ++ frameCheck (headerBytes (header 1 3 44 2) ++ [0xAB, 0xCD])

theorem test_frame_end_admits : leads (exec (.frameEnd .t ending) arriving) (fun t =>
    (t.ports.b1.queues.get 1) = [⟨1, 44, 2, 1, 3000, true⟩] ∧ t.ports.t.count.rxFrames = 1 ∧
      t.store.frames = [⟨1, [5, 9, 1, 2, 0, 44, 0, 2, 0, 8, 0xAB, 0xCD], 1, 1⟩]) = true := by decide +kernel
theorem test_frame_end_bad_check : leads (exec (.frameEnd .t (0 :: ending)) arriving) (fun t =>
    t.ports.t.count.rxCheck = 1 ∧ t.store.free = 512 ∧ t.ports.t.rx.state = .idle) = true := by decide +kernel
/-- A runt of nine bytes; a dropped frame; a drained one; the three end checks in order, with four bytes and with three after the header. -/
theorem witness_FrameEndJudgesByState : arriving.resetHeld = false ∧
    leads (exec (.frameEnd .b1 (List.replicate 9 0)) (inHeader up .b1)) (fun t => t.ports.b1.count.rxCheck = 1) = true ∧
    leads (exec (.frameEnd .b1 []) (received up .b1 .dropped none 0 (header 1 3 44 1025))) (fun t =>
      t.ports.b1.rx.state = .idle ∧ t.ports.b1.count = .zero) = true ∧
    leads (exec (.frameEnd .b1 []) (received up .b1 .unkept (some .drained) 0 (header 1 3 44 2))) (fun t =>
      t.ports.b1.count.rxDrained = 1) = true ∧
    leads (exec (.frameEnd .t (ending.drop 3)) arriving) (fun t => t.ports.t.count.rxCheck = 1) = true ∧
    leads (exec (.frameEnd .b1 (frameCheck (headerBytes (header 1 3 44 2)))) (received up .b1 .unkept (some .branchSync) 0
      (header 1 3 44 2))) (fun t => t.ports.b1.count.rxLength = 1) = true ∧
    leads (exec (.frameEnd .b1 (frameCheck (headerBytes (header 9 3 44 0)))) (received up .b1 .unkept (some .unknownKind) 0
      (header 9 3 44 0))) (fun t => t.ports.b1.count.rxKind = 1) = true := by decide +kernel

/-- A request RENEW of station 12 on T, held in the control buffer. -/
def renewal : State :=
  (received editing .t .control none 0 ⟨5, 12, 3, 16, 0, 2, 8⟩).setControl (some ⟨12, 3, 8, none, 2, []⟩)

/-- The same header with a request of station 255. -/
def foreign : State :=
  (received editing .t .control none 0 ⟨5, 255, 3, 16, 0, 2, 8⟩).setControl (some ⟨255, 3, 8, none, 2, []⟩)

/-- A delivered RENEW is answered with the lease; a request of station 255 is counted; a branch SYNC and a branch request are counted. -/
theorem witness_DeliveredFrameGoesByItsRoute : arriving.resetHeld = false ∧ (arriving.ports.get .t).rx.header = some (header 1 3 44 2) ∧
    leads (exec (.frameEnd .t ([3, 0] ++ frameCheck (headerBytes ⟨5, 12, 3, 16, 0, 2, 8⟩ ++ [3, 0]))) renewal) (fun t =>
      t.ports.t.tx = .busy (.own ⟨.response, 12, 5, 8, [3, 0, 0x07, 0xD0], false⟩) 28 28) = true ∧
    leads (exec (.frameEnd .t ([3, 0] ++ frameCheck (headerBytes ⟨5, 255, 3, 16, 0, 2, 8⟩ ++ [3, 0]))) foreign) (fun t =>
      t.ports.t.count.rxMgmtSource = 1 ∧ t.ports.t.count.rxFrames = 0) = true ∧
    leads (exec (.frameEnd .b1 (frameCheck (headerBytes (header 2 3 0 0)))) (received up .b1 .unkept (some .branchSync) 0
      (header 2 3 0 0))) (fun t => t.ports.b1.count.rxSyncBranch = 1) = true ∧
    leads (exec (.frameEnd .b1 (frameCheck (headerBytes (header 3 3 0 0)))) (received up .b1 .unkept (some .branchMgmt) 0
      (header 3 3 0 0))) (fun t => t.ports.b1.count.rxMgmtBranch = 1) = true ∧
    leads (exec (.frameEnd .t ((be32 77003 ++ be32 12500) ++ frameCheck (headerBytes (header 2 16 0 8) ++ (be32 77003 ++ be32 12500))))
      ((received up .t .control none 0 (header 2 16 0 8)).setControl (some ⟨9, 2, 8, some 9000, 8, []⟩))) (fun t =>
      t.clock.timer = 534 ∧ t.clock.number = 77003) = true := by decide +kernel

/-- Requests as they stand on the wire (11.2): STAGE_WINDOW PUT of B1 at 2,000 for 400 with classes 0 to 2; STAGE_PARAMS of W and the retransmit time. -/
theorem test_request_bytes : requestBody (.stageWindowPut (next 11) ⟨2, 2000, 400, 7⟩) = [1, 2, 0, 0, 0x07, 0xD0, 0, 0, 0x01, 0x90, 7] ∧
    requestBody (.stageParams (next 4) ⟨none, none, some 300, none, none, none, none, some 40⟩) = [0x84, 0x01, 0x2C, 40] := by decide
theorem witness_DeliveredBytesSpellTheRequest : requestRow (.renew (next 0)) = some ⟨next 0, 0x03, 0, false⟩ ∧ (next 0).length.toNat = 0 + 2 ∧
    (next 3).length.toNat = 5 := by decide

/-! ### Classification and admission -/

/-- Every outcome of the classifier, with the largest payload kept and the budget's last frame. -/
theorem witness_ClassifierRefusesByTheFirstFailingCheck :
    (header 1 1 45 2).hopLimit ≠ 0 ∧ streamEntry enforcing.cfg.active (streamNo (header 1 1 45 2)) = none ∧
    streamEntry enforcing.cfg.active (streamNo (header 1 1 44 2)) = some stream44 ∧
    streamRecord enforcing.classifier.records 44 = some (freshRecord stream44) ∧
    (enforcing.classify .b0 (header 1 1 44 2) [1, 2] 1).ports.b0.count.rxWrongPort = 1 ∧
    (enforcing.classify .t (header 1 1 44 301) (List.replicate 301 0) 5).events.queue.map (·.notice.detail) = [301] ∧
    (enforcing.classify .t (header 1 1 44 300) (List.replicate 300 0) 5).events.queue = [] ∧
    ((enforcing.setRecords [{ freshRecord stream44 with budgetRemaining := 0, policedNow := 4 }]).classify .t (header 1 1 44 2) [1, 2] 1
      ).events.queue.map (·.notice.detail) = [5] ∧
    ((enforcing.setRecords [{ freshRecord stream44 with budgetRemaining := 1 }]).classify .t (header 1 1 44 2) [1, 2] 1
      ).classifier.records.map (·.budgetRemaining) = [0] ∧
    (enforcing.classify .t (header 1 0 44 2) [1, 2] 1).ports.t.count.rxHop = 1 := by decide +kernel
theorem witness_HopLimitZeroIsDiscarded : (header 1 0 44 2).hopLimit = 0 ∧ (header 1 1 44 2).hopLimit ≠ 0 := by decide
/-- The hypotheses of an acceptance, and the three reasons to refuse the only egress port, the 33rd descriptor among them. -/
theorem witness_AcceptedFrameIsAdmittedPortByPort : (header 1 1 44 2).hopLimit ≠ 0 ∧
    streamEntry enforcing.cfg.active (streamNo (header 1 1 44 2)) = some stream44 ∧ streamRecord enforcing.classifier.records stream44.stream = some (freshRecord stream44) ∧
    Port.t = stream44.ingress ∧ (300 : Nat) ≤ stream44.maxPayload ∧ (freshRecord stream44).budgetRemaining ≠ 0 ∧
    ((enforcing.onPort .b1 fun u => { u with link := false }).classify .t (header 1 1 44 2) [1, 2] 1).ports.b1.count.txLinkDown = 1 ∧
    ((enforcing.onPort .b1 fun u => { u with admin := .draining }).classify .t (header 1 1 44 2) [1, 2] 1).ports.b1.count.txDrained = 1 ∧
    ((enforcing.onPort .b1 fun u => { u with queues := u.queues.set 1 (List.replicate 31 (desc 1 2 1 3000)) }).classify .t
      (header 1 1 44 2) [1, 2] 1).ports.b1.count.queueFull = 0 ∧
    ((enforcing.onPort .b1 fun u => { u with queues := u.queues.set 1 (List.replicate 32 (desc 1 2 1 3000)) }).classify .t
      (header 1 1 44 2) [1, 2] 1).ports.b1.count.queueFull = 1 := by decide +kernel

/-! ### Egress -/

/-- The fit rule's example (R13): a 300-byte frame starts at 2,076 and not at 2,077, where F starts in its place. -/
theorem test_choice_fits : leads (exec (.choice .b1) (queued 2076)) (fun t =>
    t.ports.b1.tx = .busy (.data (desc 1 300 1 3000)) 324 324) = true := by decide +kernel
theorem test_choice_skips : leads (exec (.choice .b1) (queued 2077)) (fun t =>
    t.ports.b1.tx = .busy (.data (desc 3 20 2 3000)) 44 44 ∧ (t.ports.b1.queues.get 1).map (·.frame) = [1, 2]) = true := by
  decide +kernel
theorem witness_ChoiceCommandStartsTheFirstCandidate : (queued 2076).resetHeld = false ∧ ((queued 2076).ports.get .b1).tx = .idle ∧
    ((queued 2076).ports.get .b1).link = true ∧
    ((queued 2076).ports.get .b1).queues.get 1 = desc 1 300 1 3000 :: [desc 2 40 1 3000] ∧
    (desc 1 300 1 3000).live (queued 2076).clock.number = true ∧ (queued 2076).mode = .enforcing ∧
    (queued 2076).clock.timer + 300 + 24 ≤ 2400 ∧ (queued 2076).openWindow .b1 = exampleWindows[4]? ∧
    ((queued 2076).choose .b1).ports.b1.tx = .busy (.data (desc 1 300 1 3000)) 324 324 ∧ up.mode = .pass ∧
    (queued 2400).openWindow .b1 = none ∧ (State.powerOn 5 true (PerPort.fill true) []).mode = .block ∧
    (desc 1 300 1 3000).live ((queued 2076).setClock ⟨2076, 3001, 12500, 0⟩).clock.number = false ∧
    leads (exec (.choice .b1) ((queued 2076).setClock ⟨2076, 3001, 12500, 0⟩)) (fun t =>
      t.ports.b1.count.late = 3 ∧ t.ports.b1.tx = .idle ∧ t.events.queue.map (·.notice.detail) = [1]) = true ∧
    full.ports.t.tx = .idle ∧ full.ports.t.link = true ∧ full.own ≠ [] ∧
    leads (exec (.choice .t) (full.setClock ⟨1001, 3000, 12500, 0⟩)) (fun t =>
      t.own.length = 7 ∧ t.ports.t.tx = .busy (.own ⟨.response, 12, 5, 1, [0x03, 0x00], false⟩) 26 26) = true ∧
    leads (exec (.choice .t) (full.setClock ⟨2475, 3000, 12500, 0⟩)) (fun t => t.own.length = 8) = true := by decide +kernel

/-- A data frame and, on T, an own frame that a choice starts. -/
theorem witness_ChoiceStartsOnlyWhatMayStart :
    (((queued 2076).choose .b1).ports.get .b1).tx = .busy (.data (desc 1 300 1 3000)) 324 324 ∧
    (((full.setClock ⟨1001, 3000, 12500, 0⟩).choose .t).ports.get .t).tx =
      .busy (.own ⟨.response, 12, 5, 1, [0x03, 0x00], false⟩) 26 26 := by decide +kernel

theorem test_data_end : leads (exec (.dataTxEnd .b1) sending) (fun t =>
    t.ports.b1.tx = .idle ∧ t.ports.b1.count.txFrames = 1 ∧ t.classifier.records.map (·.forwarded) = [1] ∧
      t.clock.timer = 2124) = true := by decide +kernel
theorem test_sync_end : leads (exec (.syncTxEnd .b0) ((at' 10).onPort .b0 fun u => { u with tx := .busy (.sync 5 3000 12500) 32 22 }))
    (fun t => t.ports.b0.tx = .idle ∧ t.ports.b0.count.syncSent = 1 ∧ t.clock.timer = 32) = true := by decide +kernel
/-- A branch sync frame on the line: the start sequence 0xAA … 0x4B, then the header's destination 255; the gap after its last byte (11.1, R101). -/
theorem test_line : let sent (rem : Nat) := up.onPort .b0 fun u => { u with tx := .busy (.sync 5 3000 12500) 32 rem }
    ((sent 32).lineByte .b0, (sent 29).txPins .b0, (sent 28).lineByte .b0, (sent 6).lineByte .b0, ((sent 7).lineByte .b0).isSome) =
      (some 0xAA, some (0xB, 0x4), some 0xFF, none, true) := by decide +kernel
/-- The bytes of a stored frame and of an own frame on the line: two bytes after the start sequence, and the last byte of the check. -/
theorem witness_FrameCheckLeavesTheConstantRemainder :
    let stored (rem : Nat) : State := { up.onPort .b1 fun u => { u with tx := .busy (.data (desc 1 2 1 0)) 26 rem } with
      store := ⟨511, [⟨1, [5, 9, 1, 2, 0, 44, 0, 2, 0, 8, 0xAB, 0xCD], 1, 1⟩]⟩ }
    let own (rem : Nat) := up.onPort .t fun u => { u with tx := .busy (.own ⟨.response, 12, 5, 8, [3, 0], false⟩) 26 rem }
    ((stored 22).lineByte .b1, (stored 11).lineByte .b1, (stored 6).lineByte .b1, ((stored 7).lineByte .b1).isSome) =
        (some 5, some 0xCD, none, true) ∧
      ((own 22).lineByte .t, (own 20).lineByte .t, (own 11).lineByte .t, up.lineByte .t) = (some 12, some 4, some 0, none) := by
  decide +kernel
/-- An own frame in flight on T, with or without the restart mark. -/
def replying (mark : Bool) : State :=
  (at' 1000).onPort .t fun u => { u with tx := .busy (.own ⟨.response, 12, 5, 1, [0x23, 0], mark⟩) 26 26 }
theorem test_own_end : leads (exec .ownTxEnd (replying false)) (fun t => t.ports.t.tx = .idle ∧ t.slotsTaken = 0 ∧ t.lock) = true := by
  decide +kernel
theorem test_own_end_restart : leads (exec .ownTxEnd (replying true)) (fun t =>
    t.lock = false ∧ t.cfg.generation = 2 ∧ t.events.queue.map (·.notice.kind) = [.restarted]) = true := by decide +kernel
/-- Ten UNSENT notices that wait for a slot, seven own frames waiting and an eighth in flight. -/
def waiting : State :=
  ((notices 0 none none).setOwn (List.replicate 7 ⟨.response, 12, 5, 1, [0x03, 0x00], false⟩)).onPort .t fun u =>
    { u with tx := .busy (.own ⟨.response, 12, 5, 1, [0x03, 0x00], false⟩) 26 26 }
/-- R79, R159: the freed slot is on offer. A response taken next has it and the report waits; the report taken next has it and the response is dropped; and a
step on an empty queue brings the report before time goes by. -/
theorem witness_TransmissionEndsNormally : sending.resetHeld = false ∧
    (sending.ports.get .b1).tx = .busy (.data (desc 4 100 0 3000)) 124 24 ∧
    (replying true).ports.t.tx = .busy (.own ⟨.response, 12, 5, 1, [0x23, 0], true⟩) 26 26 ∧ waiting.slotsTaken = 8 ∧
    leads (exec .ownTxEnd waiting) (fun t =>
      t.slotsTaken = 7 ∧ t.events.report = none ∧
      leads (exec (.renew (next 0)) t) (fun u => u.slotsTaken = 8 ∧ u.events.report = none ∧ u.ports.t.count.txOwnDrop = 0) ∧
      leads (exec .reportBuild t) (fun u =>
        u.slotsTaken = 8 ∧ u.events.report = some ⟨1, false⟩ ∧
        leads (exec (.renew (next 0)) u) fun v => v.slotsTaken = 8 ∧ v.ports.t.count.txOwnDrop = 1) ∧
      leads (step t) fun u => u.pending = [.reportBuild] ∧ u.clock = t.clock) = true := by decide +kernel

/-! ### Links, drains and restart -/

/-- B1 draining, with a flushed count of 3 in its record. -/
def draining (s : State) : State := s.onPort .b1 fun u => { u with admin := .draining, drain := some ⟨.flush, 2999, 3⟩ }

/-- R128: DRAIN_DONE of a link loss carries reason 1 and the 3 flushed before with the 3 flushed at the loss. -/
theorem test_link_loss : leads (exec (.linkLoss .b1) (draining (queued 2000))) (fun t =>
    t.ports.b1.admin = .drained ∧ t.ports.b1.count.txFlushed = 3 ∧ t.store.free = 512 ∧
      t.events.queue.map (fun x => (x.notice.kind, x.notice.detail)) = [(.linkChange, 0), (.drainDone, 0x01000006)]) = true := by
  decide +kernel
theorem test_link_loss_restart : leads (exec (.linkLoss .t) (replying true)) (fun t =>
    t.lock = false ∧ t.ports.t.link = false ∧ t.ports.t.count = .zero) = true := by decide +kernel
theorem witness_LinkLossTakesThePortDown : sending.resetHeld = false ∧ (sending.ports.get .b1).link = true ∧ sending.restartResponseOut = false ∧
    (replying true).ports.t.link = true ∧ (sending.ports.get .t).link = true := by decide +kernel
theorem test_link_return : leads (exec (.linkReturn .b1) (up.onPort .b1 fun u => { u with link := false, admin := .drained })) (fun t =>
    t.ports.b1.link ∧ t.ports.b1.admin = .drained ∧ t.events.queue.map (·.notice.detail) = [1]) = true := by decide +kernel
theorem test_drain_completion : leads (exec (.drainCompletion .b1) (draining up)) (fun t =>
    t.ports.b1.admin = .drained ∧ t.ports.b1.drain = none ∧ t.events.queue.map (·.notice.detail) = [3]) = true := by decide +kernel
theorem witness_LinkReturnAndDrainCompletion : (up.onPort .b1 fun u => { u with link := false }).resetHeld = false ∧
    ((up.onPort .b1 fun u => { u with link := false }).ports.get .b1).link = false ∧ ((draining up).ports.get .b1).admin = .draining ∧
    ((draining up).ports.get .b1).drain = some ⟨.flush, 2999, 3⟩ ∧ ((draining up).ports.get .b1).tx = .idle ∧
    ((draining (queued 0)).ports.get .b1).queues.get 1 ≠ [] := by decide +kernel
/-- A gate with the restart pending. -/
def restarting : State := { enforcing with mgmt := { enforcing.mgmt with restartPending := true } }
theorem test_warm_restart : leads (exec .warmRestart restarting) (fun t =>
    t.cfg.generation = 2 ∧ t.cfg.active = plan ∧ t.mgmt.slots.get 0 = none ∧ t.sync = .initial ∧ t.clock = restarting.clock) = true := by
  decide +kernel
/-- The same with the last byte of station 12's OPEN just arrived on T, its end not yet taken (R147). -/
def cutting : State :=
  ((restarting.onPort .t fun u =>
      { u with rx := ⟨.control, none, some ⟨5, 12, 3, 16, 0, 5, 9⟩, none, 0, 19, crcBytes crcPreset (headerBytes ⟨5, 12, 3, 16, 0, 5, 9⟩)⟩ }).setControl
    (some ⟨12, 3, 9, none, 5, []⟩))

/-- The five bytes of that OPEN, and its check. -/
def openBytes : List Byte := [1, 0, 0, 0, 100] ++ frameCheck (headerBytes ⟨5, 12, 3, 16, 0, 5, 9⟩ ++ [1, 0, 0, 0, 100])

/-- R147: the OPEN that ends at the instant of the restart is accepted against the empty slots; one that ends later is not received. -/
theorem test_restart_before_request : leads (exec .warmRestart cutting) (fun t =>
    leads (exec (.frameEnd .t openBytes) t) (fun u => u.mgmt.slots.get 0 = some ⟨12, .observe, 100, 100, 9, [1, 0, 0, 0, 100], false⟩) ∧
      leads (exec (.frameEnd .t openBytes) (t.advance 1)) (fun u => u.mgmt.slots.get 0 = none)) = true := by decide +kernel
theorem witness_WarmRestartResetsEveryBlock : restarting.resetHeld = false ∧ restarting.mgmt.restartPending = true ∧
    cutting.resetHeld = false ∧ cutting.mgmt.restartPending = true ∧ cutting.ports.t.link = true ∧ cutting.ports.t.rx.state = .control ∧
    cutting.ports.t.rx.header = some ⟨5, 12, 3, 16, 0, 5, 9⟩ ∧ cutting.control = some ⟨12, 3, 9, none, 5, []⟩ ∧
    cutting.ports.t.rx.bytes = 10 + 5 + 4 ∧
    openBytes = [1, 0, 0, 0, 100] ++ be32 (~~~(crcBytes cutting.ports.t.rx.check [1, 0, 0, 0, 100])) := by decide +kernel

/-! ### Event notices -/

/-- Thirty ordinary notices leave room for one more; thirty-one leave none. -/
def crowded (n : Nat) : EventUnit :=
  { EventUnit.powerOn with queue := List.replicate n ⟨⟨1, .linkChange, none, none, 0, 0⟩, false⟩, lastAssigned := 65535 }
theorem witness_RaisedNoticeIsQueuedOrLost : (crowded 30).overflowSet = [] ∧
    ((crowded 30).raise .sinkLost none none 5 12).lastAssigned = 0 ∧
    ((crowded 31).raise .sinkLost none none 5 12).overflowSet = [.sinkLost] ∧
    ({ crowded 31 with lostCount := 65535 }.raise .sinkLost none none 5 12).lostCount = 65535 := by decide +kernel
theorem test_overflow_queued : leads (exec .overflowQueued
    (up.setEvents { crowded 30 with overflowSet := [.streamLate, .sinkLost], lostCount := 5 })) (fun t =>
    t.events.overflowSet = [] ∧ (t.events.queue.getLast?.map (·.notice)) = some ⟨0, .overflow, none, none, 0, 0x08800005⟩) = true := by
  decide +kernel
theorem witness_OverflowNoticeIsQueued : (up.setEvents { crowded 30 with overflowSet := [.streamLate] }).resetHeld = false ∧
    ordinaryCount (crowded 30).queue < 31 ∧ overflowInQueue (crowded 30).queue = false := by decide +kernel

/-- The first row of the example of chapter 9: eight notices, tag 40, timer 20. -/
theorem test_report_build : leads (exec .reportBuild (notices 0 none none)) (fun t =>
    (sentNotices t.events.queue).map (·.sequence) = [40, 41, 42, 43, 44, 45, 46, 47] ∧ t.events.timer = some 20 ∧
      (match t.ports.t.tx with | .busy (.own f) occ _ => decide (f.tag = 40 ∧ occ = 137) | _ => false) = true) = true := by decide +kernel
theorem witness_ReportIsBuiltWhenItsConditionsHold : (notices 0 none none).resetHeld = false ∧ (notices 0 none none).events.sink = some 12 ∧
    (notices 0 none none).events.report = none ∧ unsentNotices (notices 0 none none).events.queue ≠ [] ∧
    (notices 0 none none).slotsTaken < 8 ∧ (notices 0 none none).events.queue.all (fun x => !x.sent) = true ∧
    8 ≤ full.slotsTaken ∧ up.events.sink = none := by decide +kernel
/-- The second row: at the expiry of the first 20 ms the report goes out again. -/
theorem test_timer_expiry : leads (exec .retransmitTimerExpiry (notices 8 (some ⟨1, false⟩) (some 0))) (fun t =>
    t.events.report = some ⟨2, false⟩ ∧ t.events.timer = some 20) = true := by decide +kernel
/-- After the fourth send the sink is lost, and SINK_LOST carries its station 12. -/
theorem test_sink_lost : leads (exec .retransmitTimerExpiry (notices 8 (some ⟨4, false⟩) (some 0))) (fun t =>
    t.events.sink = none ∧ t.events.report = none ∧ (t.events.queue.getLast?.map (·.notice.sequence)) = some 50 ∧
      (t.events.queue.getLast?.map (·.notice.detail)) = some 12) = true := by decide +kernel
theorem test_deferred : leads (exec .deferredRetransmission (notices 8 (some ⟨2, true⟩) none)) (fun t =>
    t.events.report = some ⟨3, false⟩ ∧ t.slotsTaken = 1) = true := by decide +kernel
theorem witness_RetransmissionsAndSinkLoss : (notices 8 (some ⟨3, false⟩) (some 0)).resetHeld = false ∧
    (notices 8 (some ⟨3, false⟩) (some 0)).events.timer = some 0 ∧ (notices 8 (some ⟨3, false⟩) (some 1)).events.timer ≠ some 0 ∧
    (notices 8 (some ⟨3, false⟩) (some 0)).events.report = some ⟨3, false⟩ ∧
    (notices 8 (some ⟨4, false⟩) (some 0)).events.report = some ⟨4, false⟩ ∧
    (notices 8 (some ⟨3, true⟩) none).events.sink = some 12 := by decide +kernel

/-! ### Requests -/

theorem next_length (n : Nat) (h : n ≤ 126) : (next n).length.toNat = n + 2 := by
  simp only [next, BitVec.toNat_ofNat]
  omega

theorem station12 (s : State) (h : s.mgmt = editing.mgmt) : sessionOf s.mgmt.slots 12 = some editor := by
  rw [h]
  decide +kernel

/-- A request of any body length stands in turn in the EDIT session of station 12, with no commit armed and with one. -/
theorem witness_EditTurn (n : Nat) (h : n ≤ 126) : editing.EditTurn (next n) n editor ∧ armed.EditTurn (next n) n editor ∧
    enforcing.EditTurn (next n) n editor ∧ full.EditTurn (next n) n editor ∧ editing.cfg.armed = none ∧ armed.cfg.armed = some 3001 :=
  ⟨⟨⟨rfl, rfl, next_length n h, station12 editing rfl, rfl⟩, rfl⟩, ⟨⟨rfl, rfl, next_length n h, station12 armed rfl, rfl⟩, rfl⟩,
    ⟨⟨rfl, rfl, next_length n h, station12 enforcing rfl, rfl⟩, rfl⟩, ⟨⟨rfl, rfl, next_length n h, station12 full rfl, rfl⟩, rfl⟩, rfl,
    rfl⟩

/-- The sessions of that gate are within the limits. -/
theorem witness_SessionInv : editing.SessionInv ∧ editing.StagedInv := by
  have h0 : editing.mgmt.slots.get 0 = some editor := rfl
  have hn : ∀ i, i ≠ 0 → editing.mgmt.slots.get i = none := by decide +kernel
  have key : ∀ i x, editing.mgmt.slots.get i = some x → i = 0 ∧ x = editor := by
    intro i x hx
    by_cases hi : i = 0
    · subst hi
      rw [h0] at hx
      exact ⟨rfl, (Option.some.inj hx).symm⟩
    · rw [hn i hi] at hx
      cases hx
  refine ⟨⟨?_, ?_, ?_⟩, fun h => absurd rfl (h 0 editor h0)⟩
  · intro i x hx
    rw [(key i x hx).2]
    simp only [Session.ok]
    decide
  · intro i j x y hx hy _
    rw [(key i x hx).1, (key j y hy).1]
  · intro i j x y hx hy _ _
    rw [(key i x hx).1, (key j y hy).1]

/-- The status byte of the newest response of station 12. -/
def statusOf (s : State) : Byte := ((s.mgmt.slots.get 0).map fun x => byteAt x.replay 1).getD 0xFF

/-- The body of the newest response of station 12. -/
def bodyOf (s : State) : List Byte := ((s.mgmt.slots.get 0).map fun x => x.replay.drop 2).getD []

/-- Every way a request is turned away, with the shortest and the longest length that carries a code. -/
theorem witness_RequestsAreJudgedInOrder : editing.resetHeld = false ∧ (next 0).source ≠ 0 ∧ (next 0).source ≠ 255 ∧
    requestRow (.renew (next 0)) = some ⟨next 0, 0x03, 0, false⟩ ∧
    leads (exec (.renew ⟨12, 8, 0, 1⟩) editing) (fun t => t.mgmt.slots.get 0 = some { editor with remaining := 2000 }) = true ∧
    leads (exec (.renew ⟨12, 8, 0, 129⟩) editing) (fun t => statusOf t = 0) = true ∧
    leads (exec (.renew ⟨12, 8, 0, 128⟩) editing) (fun t => statusOf t = 0x30) = true ∧
    leads (exec (.renew ⟨13, 8, 0, 2⟩) editing) (fun t =>
      t.ports.t.tx = .busy (.own ⟨.response, 13, 5, 8, [3, 0x10], false⟩) 26 26) = true ∧
    leads (exec (.renew ⟨12, 7, 0, 2⟩) editing) (fun t =>
      t.ports.t.tx = .busy (.own ⟨.response, 12, 5, 7, editor.replay, false⟩) 28 28) = true ∧
    leads (exec (.renew ⟨12, 9, 0, 2⟩) editing) (fun t =>
      t.ports.t.tx = .busy (.own ⟨.response, 12, 5, 9, [3, 0x11, 0, 8], false⟩) 28 28) = true ∧
    leads (exec (.clearCounters (next 0)) (editing.setSlots (editing.mgmt.slots.set 0 (some { editor with mode := .observe }))))
      (fun t => statusOf t = 0x12) = true ∧
    leads (exec (.unknownRequestCode ⟨13, 8, 0, 2⟩ 0x7F) editing) (fun t =>
      t.ports.t.tx = .busy (.own ⟨.response, 13, 5, 8, [0x7F, 0x10], false⟩) 26 26) = true ∧
    leads (exec (.unknownRequestCode ⟨12, 7, 0, 2⟩ 0x7F) editing) (fun t =>
      t.ports.t.tx = .busy (.own ⟨.response, 12, 5, 7, editor.replay, false⟩) 28 28) = true ∧
    leads (exec (.unknownRequestCode ⟨12, 9, 0, 2⟩ 0x7F) editing) (fun t =>
      t.ports.t.tx = .busy (.own ⟨.response, 12, 5, 9, [0x7F, 0x11, 0, 8], false⟩) 28 28) = true ∧
    leads (exec (.unknownRequestCode ⟨12, 8, 0, 0⟩ 0) editing) (fun t =>
      t.ports.t.tx = .busy (.own ⟨.response, 12, 5, 8, [0, 0x30], false⟩) 26 26 ∧
        (t.mgmt.slots.get 0).map (·.lastSequence) = some 7) = true := by decide +kernel
/-- A slot is free, and none is. -/
theorem witness_RenewalAndResponse : editing.slotsTaken < 8 ∧ 8 ≤ full.slotsTaken := by decide +kernel
theorem test_response_dropped : leads (exec (.renew (next 0)) full) (fun t =>
    t.own.length = 8 ∧ t.ports.t.count.txOwnDrop = 1 ∧ (t.mgmt.slots.get 0).map (·.lastSequence) = some 8) = true := by decide +kernel

theorem test_open : leads (exec (.openSession ⟨20, 500, 1, 5⟩ 0 100) editing) (fun t =>
    t.mgmt.slots.get 1 = some ⟨20, .observe, 100, 100, 500, [1, 0, 1, 0, 100], true⟩ ∧ t.events.sink = some 20) = true := by
  decide +kernel
theorem test_open_claimed : leads (exec (.openSession ⟨20, 500, 0, 5⟩ 1 100) editing) (fun t =>
    t.mgmt.slots.get 1 = none ∧ t.ports.t.tx = .busy (.own ⟨.response, 20, 5, 500, [1, 0x13, 12], false⟩) 27 27) = true := by decide +kernel
/-- Four sessions of stations 12, 30, 31 and 32. -/
def crowd : State :=
  editing.setSlots ⟨some editor, some { editor with station := 30, mode := .observe }, some { editor with station := 31, mode := .observe },
    some { editor with station := 32, mode := .observe }⟩
/-- Station 12 is the sink, and its report has gone out twice. -/
def reporting : State :=
  (notices 8 (some ⟨2, false⟩) (some 14)).setSlots (editing.mgmt.slots.set 0 (some { editor with sink := true }))
theorem reporting_SessionInv : reporting.SessionInv := by
  refine ⟨fun i x hx => ?_, fun i j x y hx hy _ => ?_, fun i j x y hx hy _ _ => ?_⟩
  · fin_cases i <;> cases hx
    simp only [Session.ok]
    decide
  · fin_cases i <;> cases hx; fin_cases j <;> cases hy; rfl
  · fin_cases i <;> cases hx; fin_cases j <;> cases hy; rfl
/-- OPEN by station 20 meets every hypothesis; the edges of the lease range, and OPEN over the station's own session. -/
theorem witness_OpenStartsASession : editing.SessionInv ∧ (editing.mgmt.slots.get 1 = none) ∧ editing.resetHeld = false ∧
    (∀ i x, editing.mgmt.slots.get i = some x → x.mode = .edit → x.station = 12) ∧
    leads (exec (.openSession ⟨20, 500, 0, 5⟩ 0 100) editing) (fun t => (t.mgmt.slots.get 1).map (·.lease) = some 100) = true ∧
    leads (exec (.openSession ⟨12, 500, 0, 5⟩ 1 60000) editing) (fun t => (t.mgmt.slots.get 0).map (·.lease) = some 60000) = true ∧
    leads (exec (.openSession ⟨20, 500, 1, 5⟩ 0 100) (notices 8 (some ⟨2, false⟩) (some 14))) (fun t =>
      t.mgmt.slots.get 0 = some editor ∧ t.events.sink = some 20 ∧
        t.own.length + 1 = t.slotsTaken ∧ t.ports.t.tx = .busy (.own ⟨.response, 20, 5, 500, [1, 0, 1, 0, 100], false⟩) 29 29) = true ∧
    reporting.SessionInv ∧ reporting.events.sink = some 12 ∧ (reporting.mgmt.slots.get 0).map (·.sink) = some true ∧
    leads (exec (.openSession ⟨12, 500, 1, 5⟩ 0 100) reporting) (fun t =>
      t.events.sink = some 12 ∧ t.events.report = some ⟨1, false⟩ ∧ t.own.map (·.tag) = [40]) = true ∧
    leads (exec (.openSession ⟨12, 500, 0, 5⟩ 0 100) reporting) (fun t =>
      t.events.sink = none ∧ t.events.report = none ∧ t.events.timer = none ∧ t.events.queue.all (fun x => !x.sent)) = true :=
  ⟨witness_SessionInv.1, rfl, rfl, (fun i x hx _ => by fin_cases i <;> cases hx; rfl), by decide +kernel,
    by decide +kernel, by decide +kernel, reporting_SessionInv, by decide +kernel⟩
/-- The refusals of OPEN in order, FULL last. -/
theorem witness_OpenIsRefusedInOrder : crowd.SessionInv ∧ editing.SessionInv ∧ crowd.resetHeld = false ∧ editing.resetHeld = false ∧
    leads (exec (.openSession ⟨20, 500, 0, 5⟩ 1 100) editing) (fun t =>
      t.ports.t.tx = .busy (.own ⟨.response, 20, 5, 500, [1, 0x13, 12], false⟩) 27 27) = true ∧
    leads (exec (.openSession ⟨20, 500, 0, 1⟩ 0 100) editing) (fun t =>
      t.ports.t.tx = .busy (.own ⟨.response, 20, 5, 500, [1, 0x30], false⟩) 26 26) = true ∧
    leads (exec (.openSession ⟨20, 500, 0, 0⟩ 0 100) editing) (fun t =>
      t.ports.t.tx = .busy (.own ⟨.response, 20, 5, 500, [0, 0x30], false⟩) 26 26) = true ∧
    leads (exec (.openSession ⟨20, 500, 0, 6⟩ 0 100) editing) (fun t => t.mgmt.slots.get 1 = none) = true ∧
    leads (exec (.openSession ⟨20, 500, 0, 5⟩ 2 100) editing) (fun t => t.mgmt.slots.get 1 = none) = true ∧
    leads (exec (.openSession ⟨20, 500, 0, 5⟩ 0 99) editing) (fun t => t.mgmt.slots.get 1 = none) = true ∧
    leads (exec (.openSession ⟨20, 500, 0, 5⟩ 0 60001) editing) (fun t => t.mgmt.slots.get 1 = none) = true ∧
    leads (exec (.openSession ⟨20, 500, 0, 5⟩ 0 100) crowd) (fun t =>
      t.ports.t.tx = .busy (.own ⟨.response, 20, 5, 500, [1, 0x14], false⟩) 26 26) = true := by
  refine ⟨⟨fun i x hx => ?_, fun i j x y hx hy h => ?_, fun i j x y hx hy h k => ?_⟩, witness_SessionInv.1, by decide +kernel⟩
  · fin_cases i <;> cases hx <;> simp [Session.ok, editor]
  · fin_cases i <;> fin_cases j <;> cases hx <;> cases hy <;> first | rfl | exact absurd h (by decide)
  · fin_cases i <;> fin_cases j <;> cases hx <;> cases hy <;> first | rfl | exact absurd h (by decide) | exact absurd k (by decide)
theorem test_close : leads (exec (.closeSession (next 0)) editing) (fun t =>
    t.mgmt.slots.get 0 = none ∧ t.ports.t.tx = .busy (.own ⟨.response, 12, 5, 8, [2, 0], false⟩) 26 26) = true := by decide +kernel
theorem witness_CloseRenewAndUnknownCodes : editing.InTurn (next 0) 0 editor ∧ editing.SessionInv ∧ editing.InTurn (next 3) 3 editor :=
  ⟨(witness_EditTurn 0 (by decide)).1.1, witness_SessionInv.1, (witness_EditTurn 3 (by decide)).1.1⟩
theorem test_renew : leads (exec (.renew (next 0)) editing) (fun t =>
    bodyOf t = [0x07, 0xD0] ∧ (t.mgmt.slots.get 0).map (·.remaining) = some 2000) = true := by decide +kernel
theorem test_unknown : leads (exec (.unknownRequestCode (next 3) 0x7F) editing) (fun t => statusOf t = 0x30) = true := by decide +kernel
/-- That session with its lease run down. -/
def expiring : State := editing.setSlots (editing.mgmt.slots.set 0 (some { editor with remaining := 0 }))
theorem test_lease_expiry : leads (exec (.leaseExpiry 0) expiring) (fun t =>
    t.mgmt.slots.get 0 = none ∧ t.events.queue.map (·.notice) = [⟨1, .sessionExpired, none, none, 0, 12⟩]) = true := by decide +kernel
/-- R136: the expiry that was due finds the lease renewed by a request of the same instant. -/
theorem test_renewed_lease : leads (exec (.renew (next 0)) expiring) (fun t =>
    leads (exec (.leaseExpiry 0) t) (fun u => (u.mgmt.slots.get 0).map (·.remaining) = some 2000)) = true := by decide +kernel
/-- A transmitter that is BUSY while a command is followed up; a choice asked for that starts a frame, and one whose candidate does not fit. -/
theorem witness_SettlingKeeps : (sending.ports.get .b1).tx.isIdle = false ∧
    (settle ((queued 2076).prompt .b1)).ports.b1.tx = .busy (.data (desc 1 300 1 3000)) 324 324 ∧
    (settle ((queued 2390).prompt .b1)).ports.b1.tx = .idle ∧ ((queued 2390).prompt .b1).aux.choiceDue.b1 = true ∧
    (settle (queued 2076)).ports.b1.tx = .idle ∧
    (settle (notices 0 none none)).events.report = some ⟨1, false⟩ ∧ (notices 0 none none).aux.slotFreed = false ∧
    (settle (notices 0 none none).offerSlot).events.report = none ∧ (notices 0 none none).offerSlot.aux.slotFreed = true := by decide +kernel
theorem witness_SessionEndAndLeaseExpiry : editing.mgmt.slots.get 0 = some editor ∧ editing.resetHeld = false ∧ editor.remaining ≠ 0 ∧
    expiring.mgmt.slots.get 0 = some { editor with remaining := 0 } ∧ expiring.resetHeld = false := by decide +kernel

/-! ### READ -/

theorem test_read_identity : leads (exec (.readIdentity (next 1)) editing) (fun t =>
    bodyOf t = [0x0C, 0x05, 5, 0, 5, 2, 0, 4, 1, 0, 64]) = true := by decide +kernel
theorem test_read_stream : leads (exec (.readStream (next 4) 0 44) enforcing) (fun t =>
    bodyOf t = [0, 44, 0, 4, 1, 0x01, 0x2C, 2, 1, 7]) = true := by decide +kernel
theorem test_read_window : leads (exec (.readWindow (next 4) 1 2 1) enforcing) (fun t =>
    bodyOf t = [2, 0, 0, 0x23, 0x28, 0, 0, 0x0D, 0xA4, 8]) = true := by decide +kernel
theorem test_read_params : leads (exec (.readParams (next 2) 1) editing) (fun t =>
    bodyOf t = [0, 0, 0x30, 0xD4, 0, 0, 2, 0, 1, 0, 4, 0, 64, 8, 0, 20]) = true := by decide +kernel
theorem test_read_counters : leads (exec (.readStreamCounters (next 3) 44) enforcing) (fun t =>
    bodyOf t = 0 :: 44 :: List.replicate 24 0) = true := by decide +kernel
/-- 11.2: READ PORT of T: 11 status bytes and 24 counters. -/
theorem test_read_port : leads (exec (.readPort (next 2) 0) editing) (fun t =>
    (bodyOf t).take 11 = [0, 1, 0, 0, 0, 0, 0, 0, 0, 2, 0] ∧ (bodyOf t).length = 107) = true := by decide +kernel
theorem test_read_sync : leads (exec (.readSync (next 1)) (at' 800)) (fun t =>
    (bodyOf t).take 23 = [2, 1, 0, 0, 0x0B, 0xB8, 0, 0, 3, 0x20, 0, 0, 0x30, 0xD4, 3, 0, 1, 0, 0, 0, 0, 0, 2] ∧
      (bodyOf t).length = 83) = true := by decide +kernel
theorem test_read_sessions : leads (exec (.readSessions (next 1)) editing) (fun t =>
    bodyOf t = [12, 1, 0x07, 0xD0, 0x07, 0xD0, 0, 7, 0] ++ List.replicate 27 0) = true := by decide +kernel
theorem test_read_events : leads (exec (.readEvents (next 1)) (notices 8 (some ⟨2, false⟩) (some 14))) (fun t =>
    bodyOf t = [12, 8, 2, 0, 0, 40, 0, 49, 2, 0, 14, 0, 0, 0, 0, 20]) = true := by decide +kernel
theorem test_read_commit : leads (exec (.readCommit (next 1)) armed) (fun t =>
    bodyOf t = [0, 2, 0, 0, 0x0B, 0xB8, 1, 0, 0, 0x0B, 0xB9, 0]) = true := by decide +kernel
/-- The two values of the fields that decide whether a free value is used, and the edges of the stream range. -/
theorem witness_ReadReturnsTheObject : enforcing.InTurn (next 1) 1 editor ∧ enforcing.InTurn (next 2) 2 editor ∧ enforcing.InTurn (next 3) 3 editor ∧ enforcing.InTurn (next 4) 4 editor ∧
    (at' 0).sync.lastError = some 0 ∧ up.sync.lastError = none ∧ up.events.timer = none ∧
    (notices 8 (some ⟨1, false⟩) (some 14)).events.timer = some 14 ∧ (up.ports.get .b0).drain = none ∧
    leads (exec (.readStream (next 4) 2 44) enforcing) (fun t => statusOf t = 0x21) = true ∧
    leads (exec (.readStream (next 4) 0 4095) enforcing) (fun t => statusOf t = 0x22) = true ∧
    leads (exec (.readStream (next 4) 0 4096) enforcing) (fun t => statusOf t = 0x21) = true ∧
    leads (exec (.readWindow (next 4) 0 5 0) enforcing) (fun t => statusOf t = 0x21) = true ∧
    leads (exec (.readWindow (next 4) 0 4 0) enforcing) (fun t => statusOf t = 0x22) = true :=
  ⟨(witness_EditTurn 1 (by decide)).2.2.1.1, (witness_EditTurn 2 (by decide)).2.2.1.1, (witness_EditTurn 3 (by decide)).2.2.1.1, (witness_EditTurn 4 (by decide)).2.2.1.1, by decide +kernel⟩

/-! ### ACK -/

/-- The third row of the example of chapter 9: ACK 44 removes five. -/
theorem test_ack : leads (exec (.ack (next 2) 44) (notices 8 (some ⟨2, false⟩) (some 14))) (fun t =>
    bodyOf t = [5] ∧ (sentNotices t.events.queue).map (·.sequence) = [45, 46, 47] ∧ t.events.report = some ⟨2, false⟩) = true := by
  decide +kernel
/-- An ACK of the last SENT notice ends the report; one of the first UNSENT notice is out of range. -/
theorem witness_AckRemovesCoveredNotices :
    (notices 8 (some ⟨2, false⟩) (some 14)).InTurn (next 2) 2 editor ∧
    leads (exec (.ack (next 2) 47) (notices 8 (some ⟨2, false⟩) (some 14))) (fun t =>
    bodyOf t = [8] ∧ (sentNotices t.events.queue).map (·.sequence) = [48, 49] ∧ t.events.report = some ⟨1, false⟩) = true ∧
    leads (exec (.ack (next 2) 48) (notices 8 (some ⟨2, false⟩) (some 14))) (fun t =>
      statusOf t = 0x21 ∧ bodyOf t = [1, 0, 47]) = true ∧
    leads (exec (.ack (next 2) 50) (notices 10 (some ⟨2, false⟩) (some 14))) (fun t => statusOf t = 0x21) = true :=
  ⟨⟨rfl, rfl, next_length 2 (by decide), station12 _ rfl, rfl⟩, by decide +kernel⟩

/-! ### Staging -/

/-- A STAGE_STREAM PUT body for a stream number: B2, class 2, 200 bytes, budget 1, lifetime 3, LATE. -/
def put (n : Half) : StreamBody := ⟨n, 0, 8, 2, 200, 1, 3, 2⟩
theorem test_stage_stream_put : leads (exec (.stageStreamPut (next 11) (put 55)) editing) (fun t =>
    t.cfg.staged.streams = [⟨55, .t, ⟨false, false, false, true, false⟩, 2, 200, 1, 3, ⟨false, true, false⟩⟩] ∧ t.cfg.edited) = true := by
  decide +kernel
theorem test_stage_stream_delete : leads (exec (.stageStreamDelete (next 3) 44) enforcing) (fun t =>
    t.cfg.staged.streams = [] ∧ t.cfg.active.streams = [stream44]) = true := by decide +kernel
/-- Each refusal of STAGE_STREAM PUT at the first value past its range, and the values at its edge. -/
theorem witness_StageStreamPutAddsTheEntry : editing.EditTurn (next 11) 11 editor ∧ editing.cfg.armed = none ∧
   
    leads (exec (.stageStreamPut (next 11) (put 0)) editing) (fun t => statusOf t = 0x21 ∧ bodyOf t = [1]) = true ∧
    leads (exec (.stageStreamPut (next 11) (put 4095)) editing) (fun t => statusOf t = 0) = true ∧
    leads (exec (.stageStreamPut (next 11) (put 4096)) editing) (fun t => bodyOf t = [1]) = true ∧
    leads (exec (.stageStreamPut (next 11) { put 55 with ingress := 5 }) editing) (fun t => bodyOf t = [2]) = true ∧
    leads (exec (.stageStreamPut (next 11) { put 55 with egress := 32 }) editing) (fun t => bodyOf t = [3]) = true ∧
    leads (exec (.stageStreamPut (next 11) { put 55 with cls := 4 }) editing) (fun t => bodyOf t = [4]) = true ∧
    leads (exec (.stageStreamPut (next 11) { put 55 with maxPayload := 1025 }) editing) (fun t => bodyOf t = [5]) = true ∧
    leads (exec (.stageStreamPut (next 11) { put 55 with lifetime := 17 }) editing) (fun t => bodyOf t = [7]) = true ∧
    leads (exec (.stageStreamPut (next 11) { put 55 with report := 8 }) editing) (fun t => bodyOf t = [8]) = true ∧
    leads (exec (.stageStreamPut (next 11) { put 55 with egress := 0 }) editing) (fun t => bodyOf t = [1, 0, 0, 0, 0]) = true ∧
    leads (exec (.stageStreamPut (next 11) { put 55 with egress := 1 }) editing) (fun t => bodyOf t = [2, 0, 0, 0, 0]) = true :=
  ⟨(witness_EditTurn 11 (by decide)).1, rfl, by decide +kernel⟩
theorem witness_StageStreamDeleteRemovesTheEntry : editing.EditTurn (next 3) 3 editor ∧ enforcing.EditTurn (next 3) 3 editor ∧ editing.cfg.armed = none ∧
    leads (exec (.stageStreamDelete (next 3) 4096) editing) (fun t => bodyOf t = [1]) = true ∧
    leads (exec (.stageStreamDelete (next 3) 4095) editing) (fun t => statusOf t = 0x22) = true ∧
    streamEntry enforcing.cfg.staged ((44 : Half).setWidth 12) = some stream44 :=
  ⟨(witness_EditTurn 3 (by decide)).1, (witness_EditTurn 3 (by decide)).2.2.1, rfl, by decide +kernel⟩
theorem witness_StagingIsRefusedWhileArmed : armed.EditTurn (next 1) 1 editor ∧ armed.EditTurn (next 11) 11 editor ∧ armed.cfg.armed ≠ none ∧
    requestRow (.stageParams (next 1) ⟨none, none, none, none, none, none, none, none⟩) =
      some ⟨next 1, 0x12, 1, true⟩ ∧
    leads (exec (.stageStreamPut (next 11) (put 55)) armed) (fun t => statusOf t = 0x24 ∧ t.cfg = armed.cfg) = true :=
  ⟨(witness_EditTurn 1 (by decide)).2.1, (witness_EditTurn 11 (by decide)).2.1, by decide +kernel, by decide +kernel⟩

theorem test_stage_window_put : leads (exec (.stageWindowPut (next 11) ⟨2, 2400, 32, 15⟩) enforcing) (fun t =>
    t.cfg.staged.windows.length = 7 ∧ (portWindows t.cfg.staged .b1).map (·.start) = [2000, 2400, 9000]) = true := by decide +kernel
/-- Each refusal of STAGE_WINDOW PUT, at the edge of its range; a window that ends where the next begins does not overlap, one byte time more does; a window
of the same key is replaced. -/
theorem witness_StageWindowPutAddsTheWindow : enforcing.EditTurn (next 11) 11 editor ∧ enforcing.cfg.armed = none ∧ enforcing.ConfigInv ∧
   
    leads (exec (.stageWindowPut (next 11) ⟨5, 2400, 32, 15⟩) enforcing) (fun t => bodyOf t = [1]) = true ∧
    leads (exec (.stageWindowPut (next 11) ⟨4, 12499960, 32, 15⟩) enforcing) (fun t => statusOf t = 0) = true ∧
    leads (exec (.stageWindowPut (next 11) ⟨4, 12499961, 32, 15⟩) enforcing) (fun t => bodyOf t = [3]) = true ∧
    leads (exec (.stageWindowPut (next 11) ⟨4, 2400, 32, 16⟩) enforcing) (fun t => bodyOf t = [4]) = true ∧
    leads (exec (.stageWindowPut (next 11) ⟨4, 2400, 31, 15⟩) enforcing) (fun t => bodyOf t = [3, 0, 0, 0, 0]) = true ∧
    leads (exec (.stageWindowPut (next 11) ⟨4, 2400, 32, 0⟩) enforcing) (fun t => bodyOf t = [4, 0, 0, 0, 0]) = true ∧
    leads (exec (.stageWindowPut (next 11) ⟨4, 31, 32, 1⟩) enforcing) (fun t => bodyOf t = [5, 0, 0, 0, 0]) = true ∧
    leads (exec (.stageWindowPut (next 11) ⟨2, 1968, 32, 1⟩) enforcing) (fun t => statusOf t = 0) = true ∧
    leads (exec (.stageWindowPut (next 11) ⟨2, 1968, 33, 1⟩) enforcing) (fun t => bodyOf t = [6, 0, 0, 0x07, 0xD0]) = true ∧
    leads (exec (.stageWindowPut (next 11) ⟨2, 2000, 500, 1⟩) enforcing) (fun t =>
      (portWindows t.cfg.staged .b1).map (·.length) = [500, 3492]) = true :=
  ⟨(witness_EditTurn 11 (by decide)).2.2.1, rfl, witness_ConfigInv, by decide +kernel⟩
theorem test_stage_window_delete : leads (exec (.stageWindowDelete (next 6) 2 2000) enforcing) (fun t =>
    (portWindows t.cfg.staged .b1).map (·.start) = [9000]) = true := by decide +kernel
theorem test_stage_window_clear : leads (exec (.stageWindowClearPort (next 2) 2) enforcing) (fun t =>
    portWindows t.cfg.staged .b1 = [] ∧ bodyOf t = [2] ∧ t.cfg.staged.windows.length = 4) = true := by decide +kernel
theorem witness_StageWindowDeleteAndClearPort : enforcing.EditTurn (next 6) 6 editor ∧ enforcing.EditTurn (next 2) 2 editor ∧ enforcing.cfg.armed = none ∧
    leads (exec (.stageWindowDelete (next 6) 2 2001) enforcing) (fun t => statusOf t = 0x22) = true ∧
    leads (exec (.stageWindowDelete (next 6) 5 2000) enforcing) (fun t => bodyOf t = [1]) = true ∧
    leads (exec (.stageWindowClearPort (next 2) 4) enforcing) (fun t => bodyOf t = [0] ∧ t.cfg.edited) = true :=
  ⟨(witness_EditTurn 6 (by decide)).2.2.1, (witness_EditTurn 2 (by decide)).2.2.1, rfl, by decide +kernel⟩

/-- No parameter carried. -/
def noParams : ParamsBody := ⟨none, none, none, none, none, none, none, none⟩
theorem test_stage_params : leads (exec (.stageParams (next 4) { noParams with halfWidth := some 300, policy := some 1 }) editing) (fun t =>
    t.cfg.staged.params = ⟨12500, 512, 300, 4, 64, 8, .block, 20⟩ ∧ t.cfg.active.params.halfWidth = 256) = true := by decide +kernel
/-- The first value past each parameter's range, the values at the range's edges, and the length of the body that carries them. -/
theorem witness_StageParamsWritesAllOrNone : editing.EditTurn (next 4) 4 editor ∧ editing.cfg.armed = none ∧
    paramsBodySize { noParams with halfWidth := some 300, policy := some 1 } = 4 ∧
    (paramsBodyFields { noParams with cycleLength := some 1249 }).find? (fun f => !f.2) = some (1, false) ∧
    (paramsBodyFields { noParams with syncOffset := some 12500000 }).find? (fun f => !f.2) = some (2, false) ∧
    (paramsBodyFields { noParams with halfWidth := some 15 }).find? (fun f => !f.2) = some (3, false) ∧
    (paramsBodyFields { noParams with lockTolerance := some 65 }).find? (fun f => !f.2) = some (4, false) ∧
    (paramsBodyFields { noParams with stepThreshold := some 4096 }).find? (fun f => !f.2) = some (5, false) ∧
    (paramsBodyFields { noParams with holdoverLimit := some 0 }).find? (fun f => !f.2) = some (6, false) ∧
    (paramsBodyFields { noParams with policy := some 2 }).find? (fun f => !f.2) = some (7, false) ∧
    (paramsBodyFields { noParams with retransmitTime := some 0 }).find? (fun f => !f.2) = some (8, false) ∧
    (paramsBodyFields ⟨some 1250, some 12499999, some 4096, some 64, some 2, some 255, some 1, some 255⟩).all (·.2) = true :=
  ⟨(witness_EditTurn 4 (by decide)).1, rfl, by decide +kernel⟩

/-! ### Validation, COMMIT and ABORT -/

/-- A configuration that passes, and one that fails each check first. -/
theorem witness_ValidationPassesExactlyTheSixChecks : validate plan = none ∧
    validate { plan with params := { plan.params with cycleLength := 12499 } } = some ⟨1, none, some .b1, some 1⟩ ∧
    validate { plan with params := { plan.params with cycleLength := 5007 } } = some ⟨1, none, some .t, some 1⟩ ∧
    validate { plan with params := { plan.params with syncOffset := 255 } } = some ⟨2, none, none, none⟩ ∧
    validate { plan with params := { plan.params with stepThreshold := 256 } } = some ⟨3, none, none, none⟩ ∧
    validate { plan with windows := plan.windows.drop 1 } = some ⟨4, none, none, none⟩ ∧
    validate { plan with streams := [{ stream44 with egress := ⟨false, false, false, true, false⟩ }] } =
      some ⟨5, some 44, some .b2, none⟩ ∧
    validate { plan with streams := [stream44, { stream44 with stream := 45, egress := ⟨false, true, false, true, true⟩ },
      { stream44 with stream := 46, egress := ⟨false, false, false, true, false⟩ }] } = some ⟨5, some 45, some .b2, none⟩ ∧
    validate { plan with streams := [{ stream44 with maxPayload := 376 }] } = none ∧
    validate { plan with streams := [{ stream44 with maxPayload := 377 }] } = some ⟨6, some 44, some .b1, none⟩ := by decide +kernel
theorem test_commit : leads (exec (.commit (next 4) 0) enforcing) (fun t =>
    t.cfg.armed = some 3001 ∧ statusOf t = 1 ∧ bodyOf t = [0, 0, 0x0B, 0xB9, 0, 2]) = true := by decide +kernel
/-- The farthest target kept and the nearest refused; a check that fails; a commit already armed. -/
theorem witness_CommitArmsAValidPendingCopy : editing.EditTurn (next 4) 4 editor ∧ armed.EditTurn (next 4) 4 editor ∧ enforcing.EditTurn (next 4) 4 editor ∧
    leads (exec (.commit (next 4) 4024) enforcing) (fun t => t.cfg.armed = some 4024) = true ∧
    leads (exec (.commit (next 4) 4025) enforcing) (fun t => bodyOf t = [0, 0, 0x0B, 0xB8]) = true ∧
    leads (exec (.commit (next 4) 3000) enforcing) (fun t => statusOf t = 0x21) = true ∧
    leads (exec (.commit (next 4) 0) editing) (fun t => statusOf t = 0x20 ∧ bodyOf t = [4, 0, 0, 0xFF, 0xFF]) = true ∧
    leads (exec (.commit (next 4) 0) armed) (fun t => statusOf t = 0x24) = true :=
  ⟨(witness_EditTurn 4 (by decide)).1, (witness_EditTurn 4 (by decide)).2.1, (witness_EditTurn 4 (by decide)).2.2.1, by decide +kernel⟩
theorem test_abort : leads (exec (.abort (next 3) 0 2) armed) (fun t =>
    t.cfg.armed = none ∧ statusOf t = 2 ∧ bodyOf t = [0, 0, 0x0B, 0xB9]) = true := by decide +kernel
theorem witness_AbortAnswersByGeneration : editing.EditTurn (next 3) 3 editor ∧ armed.EditTurn (next 3) 3 editor ∧
    leads (exec (.abort (next 3) 2 2) (editing.setSlots (editing.mgmt.slots.set 0 (some { editor with mode := .observe }))))
      (fun t => statusOf t = 0x12) = true ∧
    leads (exec (.abort (next 3) 2 2) armed) (fun t => statusOf t = 0x21) = true ∧
    leads (exec (.abort (next 3) 0 3) armed) (fun t => statusOf t = 3 ∧ bodyOf t = [0, 2]) = true ∧
    leads (exec (.abort (next 3) 1 0) (editing.setCfg { editing.cfg with staged := plan, edited := true })) (fun t =>
      statusOf t = 0 ∧ t.cfg = editing.cfg) = true :=
  ⟨(witness_EditTurn 3 (by decide)).1, (witness_EditTurn 3 (by decide)).2.1, by decide +kernel⟩

/-! ### DRAIN, RESUME, CLEAR_COUNTERS, RESTART -/

theorem test_drain_flush : leads (exec (.drain (next 2) 2 0) (queued 5000)) (fun t =>
    bodyOf t = [2, 2, 0, 0, 0, 3] ∧ t.ports.b1.admin = .drained ∧ t.events.queue.map (·.notice.detail) = [3]) = true := by decide +kernel
theorem test_drain_empty : leads (exec (.drain (next 2) 2 1) (queued 5000)) (fun t =>
    bodyOf t = [2, 1, 0, 0, 0, 0] ∧ t.ports.b1.drain = some ⟨.empty, 3000, 0⟩) = true := by decide +kernel
theorem test_resume : leads (exec (.resume (next 1) 2) (draining (queued 5000))) (fun t =>
    bodyOf t = [2, 1, 3] ∧ t.ports.b1.admin = .opened ∧ t.ports.b1.drain = none) = true := by decide +kernel
theorem witness_DrainAndResume : editing.EditTurn (next 2) 2 editor ∧ editing.EditTurn (next 1) 1 editor ∧
    leads (exec (.drain (next 2) 5 0) editing) (fun t => statusOf t = 0x21) = true ∧
    leads (exec (.drain (next 2) 2 2) editing) (fun t => statusOf t = 0x21) = true ∧
    leads (exec (.drain (next 2) 0 0) editing) (fun t => statusOf t = 0x31 ∧ bodyOf t = [0, 1]) = true ∧
    leads (exec (.drain (next 2) 2 0) (draining (queued 5000))) (fun t => bodyOf t = [1, 1]) = true ∧
    leads (exec (.resume (next 1) 5) editing) (fun t => statusOf t = 0x21) = true ∧
    leads (exec (.resume (next 1) 2) editing) (fun t => bodyOf t = [0, 1]) = true :=
  ⟨(witness_EditTurn 2 (by decide)).1, (witness_EditTurn 1 (by decide)).1, by decide +kernel⟩
theorem test_clear_counters : leads (exec (.clearCounters (next 0)) ((at' 0).setTrunk ⟨1, 2, 3, 4, 5, 6, 7⟩)) (fun t =>
    t.trunkCount = .zero ∧ t.classifier.records.map (·.budgetRemaining) = [2]) = true := by decide +kernel
theorem test_restart : leads (exec (.restart (next 0)) editing) (fun t =>
    t.mgmt.restartPending ∧ t.ports.t.tx = .busy (.own ⟨.response, 12, 5, 8, [0x23, 0], true⟩) 26 26) = true := by decide +kernel
theorem witness_ClearCountersAndRestart : editing.EditTurn (next 0) 0 editor ∧ full.EditTurn (next 0) 0 editor ∧
    editing.mgmt.restartPending = false ∧ restarting.mgmt.restartPending = true ∧ editing.slotsTaken < 8 ∧
    8 ≤ full.slotsTaken ∧ full.mgmt.restartPending = false ∧
    leads (exec (.restart (next 0)) full) (fun t => t.own = [] ∧ t.events.queue.map (·.notice.kind) = [.restarted]) = true :=
  ⟨(witness_EditTurn 0 (by decide)).1, (witness_EditTurn 0 (by decide)).2.2.2.1, by decide +kernel⟩

/-! ### The invariants hold of a state that steps -/

theorem witness_reset_steps : leads (step State.reset) (fun t => t.clock.timer = 1) = true := by decide +kernel
/-- `State.reset` meets the standing conditions, and steps (`witness_reset_steps`): the witness of the seven EveryStepKeeps statements. -/
theorem witness_EveryStepKeeps : State.reset.LockInv ∧ State.reset.SyncInv ∧ State.reset.SessionInv ∧ State.reset.StagedInv ∧
    State.reset.ConfigInv ∧ State.reset.PoolInv ∧ State.reset.QueueInv ∧ State.reset.NoticeInv ∧ State.reset.RefInv ∧
    State.reset.DrainInv ∧ State.reset.LinkInv ∧ State.reset.RecordInv := by
  have hp : ∀ p, State.reset.ports.get p = PortUnit.powerOn false := by intro p; cases p <;> rfl
  have hn : ∀ i, State.reset.mgmt.slots.get i = none := by decide
  refine ⟨rfl, ⟨rfl, rfl, rfl⟩, ⟨?_, ?_, ?_⟩, fun _ _ => ⟨rfl, rfl⟩, ⟨powerOn_ok _, powerOn_ok _, fun h => absurd rfl h,
    fun h => absurd rfl h, fun _ => rfl⟩, ⟨by decide, fun p _ => by rw [hp]; rfl⟩,
    ⟨fun p c => by rw [hp]; fin_cases c <;> decide, fun p c d hd => ?_, by decide, by decide, by decide⟩,
    ⟨⟨0, by decide, by decide, by decide⟩, rfl, by decide, (fun _ h => nomatch (show (none : Option Report) = some _ from h)), fun _ => rfl⟩,
    ⟨by decide, by decide, by decide⟩, ⟨rfl, fun p => ?_⟩, fun p _ => ?_, ⟨rfl, by decide⟩⟩
  · intro i x hx
    rw [hn] at hx
    cases hx
  · intro i j x y hx
    rw [hn] at hx
    cases hx
  · intro i j x y hx
    rw [hn] at hx
    cases hx
  · rw [hp] at hd
    fin_cases c <;> cases hd
  · rw [hp]
    refine ⟨⟨fun h => ?_, fun h => ?_⟩, fun _ h => ?_⟩ <;> cases h
  · rw [hp]
    exact ⟨rfl, rfl, rfl⟩

/-- A swap is a step that changes the active configuration, and a natural cycle start without one is a step that does not. -/
theorem witness_OnlyASwapChangesTheActiveConfiguration : leads (exec .swap (armed.setCfg { armed.cfg with staged := { plan with streams := [] } })) (fun t =>
      t.cfg.active = { plan with streams := [] }) = true ∧
    leads (exec .naturalCycleStart enforcing) (fun t => t.cfg = enforcing.cfg) = true := by decide +kernel

end Sys2Proof.Tests
end

section
/-! The classifier's refusals (R30 to R34): one lemma per operation that `State.classify` is made of, one equation per check that fails, and
the obligations on the hop check and on the checks after it. -/

namespace Sys2Proof.Machine

open Sys2Proof

/-! ### Lookups -/

theorem inEffect_iff (m : Option Word) (n : Word) : inEffect m n = true ↔ m = some n := decide_eq_true_iff

/-- The entry found under a stream number carries that number (R23). -/
theorem streamEntry_stream {c : Configuration} {n : StreamNo} {e : StreamEntry} (h : streamEntry c n = some e) : e.stream = n := by
  unfold streamEntry at h
  simpa using List.find?_some h

/-- A change that keeps stream numbers is found again under the number it was made at. -/
theorem streamRecord_updateRecord_same {f : StreamRecord → StreamRecord} (hf : ∀ r, (f r).stream = r.stream) (n : StreamNo)
    (rs : List StreamRecord) : streamRecord (updateRecord n f rs) n = (streamRecord rs n).map f := by
  induction rs with
  | nil => rfl
  | cons r rs ih =>
    simp only [streamRecord, updateRecord] at ih
    by_cases h : r.stream = n
    · simp [streamRecord, updateRecord, h, hf]
    · simp [streamRecord, updateRecord, h, ih]

/-! ### Counting at one port -/

/-- Adding 1 to a counter of one port, read at any port: `g k x` is the counters `k` with `x` added to that counter. -/
theorem onCount_add (g : PortCounters → Word → PortCounters) (h0 : ∀ k, g k 0 = k) (s : State) (p q : Port) :
    (s.onCount p fun k => g k 1).ports.get q =
      { s.ports.get q with count := g (s.ports.get q).count (if q = p then 1 else 0) } := by
  rw [State.onCount_ports, PerPort.get_set]
  by_cases h : q = p
  · simp [h]
  · rw [if_neg h, if_neg h, h0]

/-- What `view` reads off the counters stays where the change at one port does not touch it. -/
theorem onCount_view {α : Type} (view : PortCounters → α) (s : State) (p q : Port) (f : PortCounters → PortCounters)
    (hf : ∀ k, view (f k) = view k) : view ((s.onCount p f).ports.get q).count = view (s.ports.get q).count := by
  rw [State.onCount_ports, PerPort.get_set]
  split
  · rename_i h
    rw [h]
    exact hf _
  · rfl

/-- Blocks go back to the pool of a store that nothing else has changed (R66). -/
theorem returnBlocks_store {s t : State} (h : t.store = s.store) (n : Nat) :
    (t.returnBlocks n).store = { s.store with free := s.store.free + n } := by
  rw [← h]
  rfl

/-! ### Check 2: UNKNOWN_STREAM under the port's mark (R31) -/

section
variable (s : State) (p : Port) (n : StreamNo)

theorem unknownStream_rest :
    (s.unknownStream p n).ports = (s.onCount p fun k => { k with rxUnknown := k.rxUnknown + 1 }).ports ∧
    (s.unknownStream p n).store = s.store ∧ (s.unknownStream p n).own = s.own ∧
    (s.unknownStream p n).classifier.records = s.classifier.records := by
  unfold State.unknownStream
  dsimp only
  split <;> exact ⟨rfl, rfl, rfl, rfl⟩

/-- Where the mark is in effect already, setting it again changes nothing. -/
theorem unknownStream_marks :
    (s.unknownStream p n).classifier.unknownMarks = s.classifier.unknownMarks.set p (some s.clock.number) := by
  unfold State.unknownStream
  dsimp only
  split
  · rename_i h
    have hmark : s.classifier.unknownMarks.get p = some s.clock.number := (inEffect_iff ..).1 h
    rw [← hmark]
    exact (PerPort.set_get ..).symm
  · rfl

theorem unknownStream_events : (s.unknownStream p n).events =
    if s.classifier.unknownMarks.get p = some s.clock.number then s.events
    else s.events.raise .unknownStream (some p) (noticeStream n) s.clock.number 0 := by
  simp only [State.unknownStream, inEffect_iff, State.onCount_classifier, State.onCount_clock]
  split <;> rfl

end

/-! ### Checks 4 and 5: a stream counter, and a notice under the stream's mark (R33, R34) -/

/-- What checks 4 and 5 do alike: `count` changes the stream's record; where the refusal is `reported`, a notice is raised and `mark` marks the
record. `oversizeFrame_eq` and `policeFrame_eq` tie it to the model. -/
def State.countUnderMark (s : State) (p : Port) (n : StreamNo) (count mark : StreamRecord → StreamRecord) (kind : NoticeKind)
    (detail : Word) (reported : Prop) [Decidable reported] : State :=
  if reported then ((s.onRecord n count).raise kind (some p) (noticeStream n) detail).onRecord n mark else s.onRecord n count

theorem oversizeFrame_eq (s : State) (p : Port) (e : StreamEntry) (r : StreamRecord) (length : Nat) :
    s.oversizeFrame p e r length =
      s.countUnderMark p e.stream (fun r => { r with oversize := r.oversize + 1 })
        (fun r => { r with oversizeMark := some s.clock.number }) .streamOversize (wordOf length)
        (e.report.oversize = true ∧ r.oversizeMark ≠ some s.clock.number) := by
  simp only [State.oversizeFrame, State.countUnderMark, inEffect_iff, (onRecord_kept ..).clock, ne_eq]

theorem policeFrame_eq (s : State) (p : Port) (e : StreamEntry) (r : StreamRecord) :
    s.policeFrame p e r =
      s.countUnderMark p e.stream (fun r => { r with policed := r.policed + 1, policedNow := r.policedNow + 1 })
        (fun r => { r with policedMark := some s.clock.number }) .streamPoliced (r.policedNow + 1)
        (e.report.policed = true ∧ r.policedMark ≠ some s.clock.number) := by
  simp only [State.policeFrame, State.countUnderMark, inEffect_iff, (onRecord_kept ..).clock, ne_eq]

section
variable (s : State) (p : Port) (n : StreamNo) (count mark : StreamRecord → StreamRecord) (kind : NoticeKind) (detail : Word)
  (reported : Prop) [Decidable reported]

theorem countUnderMark_rest :
    (s.countUnderMark p n count mark kind detail reported).ports = s.ports ∧
    (s.countUnderMark p n count mark kind detail reported).store = s.store ∧
    (s.countUnderMark p n count mark kind detail reported).own = s.own ∧
    (s.countUnderMark p n count mark kind detail reported).classifier.unknownMarks = s.classifier.unknownMarks := by
  unfold State.countUnderMark
  split <;> exact ⟨rfl, rfl, rfl, rfl⟩

theorem countUnderMark_events : (s.countUnderMark p n count mark kind detail reported).events =
    if reported then s.events.raise kind (some p) (noticeStream n) s.clock.number detail else s.events := by
  unfold State.countUnderMark
  split <;> rfl

theorem countUnderMark_record (hcount : ∀ r, (count r).stream = r.stream) (hmark : ∀ r, (mark r).stream = r.stream) :
    streamRecord (s.countUnderMark p n count mark kind detail reported).classifier.records n =
      (streamRecord s.classifier.records n).map fun r => if reported then mark (count r) else count r := by
  unfold State.countUnderMark
  split
  · change streamRecord (updateRecord n mark (updateRecord n count s.classifier.records)) n = _
    rw [streamRecord_updateRecord_same hmark, streamRecord_updateRecord_same hcount, Option.map_map]
    rfl
  · exact streamRecord_updateRecord_same hcount ..

end

/-- A frame refused by check 4 or 5, once its blocks are back in the pool. -/
theorem countUnderMark_discards {s : State} {p : Port} {n : StreamNo} {count mark : StreamRecord → StreamRecord} {kind : NoticeKind}
    {detail : Word} {reported : Prop} [Decidable reported] {r r' : StreamRecord} (held : Nat)
    (hr : streamRecord s.classifier.records n = some r)
    (hcount : ∀ r, (count r).stream = r.stream) (hmark : ∀ r, (mark r).stream = r.stream)
    (hr' : (if reported then mark (count r) else count r) = r') :
    let t := (s.countUnderMark p n count mark kind detail reported).returnBlocks held
    (t.store = { s.store with free := s.store.free + held } ∧ t.own = s.own) ∧ t.ports = s.ports ∧
      t.classifier.unknownMarks = s.classifier.unknownMarks ∧
      t.events = (if reported then s.events.raise kind (some p) (noticeStream n) s.clock.number detail else s.events) ∧
      streamRecord t.classifier.records n = some r' := by
  obtain ⟨hports, hstore, hown, hmarks⟩ := countUnderMark_rest s p n count mark kind detail reported
  have hrecord := countUnderMark_record s p n count mark kind detail reported hcount hmark
  rw [hr, Option.map_some, hr'] at hrecord
  exact ⟨⟨returnBlocks_store hstore held, hown⟩, hports, hmarks, countUnderMark_events .., hrecord⟩

/-! ### Admission counts no refusal of the classifier (R37) -/

/-- The counters of a port without the three that admission counts. -/
def PortCounters.withoutAdmission (k : PortCounters) : PortCounters := { k with txLinkDown := 0, txDrained := 0, queueFull := 0 }

/-- An offer counts nothing but its own three reasons to refuse. -/
theorem offer_count (s : State) (d : Descriptor) (p q : Port) :
    ((s.offer d p).1.ports.get q).count.withoutAdmission = (s.ports.get q).count.withoutAdmission := by
  unfold State.offer
  dsimp only
  split
  · exact onCount_view PortCounters.withoutAdmission s p q (fun k => { k with txLinkDown := k.txLinkDown + 1 }) fun _ => rfl
  · split
    · exact onCount_view PortCounters.withoutAdmission s p q (fun k => { k with txDrained := k.txDrained + 1 }) fun _ => rfl
    · split
      · exact onCount_view PortCounters.withoutAdmission s p q (fun k => { k with queueFull := k.queueFull + 1 }) fun _ => rfl
      · rw [apply_ite State.ports, State.prompt_ports, ite_self, State.onPort_ports, PerPort.get_set]
        split
        · rename_i h
          rw [h]
        · rfl

theorem offerAll_count (d : Descriptor) (ps : List Port) (s : State) (q : Port) :
    ((s.offerAll d ps).1.ports.get q).count.withoutAdmission = (s.ports.get q).count.withoutAdmission := by
  induction ps generalizing s with
  | nil => rfl
  | cons p ps ih => exact (ih _).trans (offer_count s d p q)

theorem acceptFrame_count (s : State) (e : StreamEntry) (h : Header) (payload : List Byte) (held : Nat) (q : Port) :
    ((s.acceptFrame e h payload held).ports.get q).count.withoutAdmission = (s.ports.get q).count.withoutAdmission := by
  unfold State.acceptFrame
  dsimp only
  split <;> exact offerAll_count ..

/-! ### The classifier, by the first check that fails -/

section
variable {s : State} {p : Port} {h : Header} {payload : List Byte} {held : Nat} {e : StreamEntry} {r : StreamRecord}

theorem classify_hopZero (hh : h.hopLimit = 0) :
    s.classify p h payload held = (s.onCount p fun k => { k with rxHop := k.rxHop + 1 }).returnBlocks held := if_pos hh

theorem classify_unknown (hh : h.hopLimit ≠ 0) (he : streamEntry s.cfg.active (streamNo h) = none) :
    s.classify p h payload held = (s.unknownStream p (streamNo h)).returnBlocks held := by
  simp only [State.classify, if_neg hh, he]

theorem classify_wrongPort (hh : h.hopLimit ≠ 0) (he : streamEntry s.cfg.active (streamNo h) = some e) (hp : p ≠ e.ingress) :
    s.classify p h payload held =
      (s.onCount p fun k => { k with rxWrongPort := k.rxWrongPort + 1 }).returnBlocks held := by
  simp only [State.classify, if_neg hh, he, if_pos hp]

theorem classify_oversize (hh : h.hopLimit ≠ 0) (he : streamEntry s.cfg.active (streamNo h) = some e)
    (hr : streamRecord s.classifier.records (streamNo h) = some r) (hp : p = e.ingress) (hl : e.maxPayload < payload.length) :
    s.classify p h payload held = (s.oversizeFrame p e r payload.length).returnBlocks held := by
  simp only [State.classify, if_neg hh, he, streamEntry_stream he, hr, if_neg (not_not.2 hp), if_pos hl, Option.getD_some]

theorem classify_policed (hh : h.hopLimit ≠ 0) (he : streamEntry s.cfg.active (streamNo h) = some e)
    (hr : streamRecord s.classifier.records (streamNo h) = some r) (hp : p = e.ingress) (hl : payload.length ≤ e.maxPayload)
    (hb : e.budget ≠ 0 ∧ r.budgetRemaining = 0) :
    s.classify p h payload held = (s.policeFrame p e r).returnBlocks held := by
  simp only [State.classify, if_neg hh, he, streamEntry_stream he, hr, if_neg (not_not.2 hp), if_neg (not_lt.2 hl), Option.getD_some,
    if_pos hb]

/-- A frame past the hop check counts no RX_HOP, whichever check it ends at. -/
theorem classify_rxHop (hh : h.hopLimit ≠ 0) (q : Port) :
    ((s.classify p h payload held).ports.get q).count.rxHop = (s.ports.get q).count.rxHop := by
  cases he : streamEntry s.cfg.active (streamNo h) with
  | none =>
    rw [classify_unknown hh he]
    change ((s.unknownStream p _).ports.get q).count.rxHop = _
    rw [(unknownStream_rest ..).1]
    exact onCount_view PortCounters.rxHop s p q (fun k => { k with rxUnknown := k.rxUnknown + 1 }) fun _ => rfl
  | some e =>
    simp only [State.classify, if_neg hh, he]
    split
    · exact onCount_view PortCounters.rxHop s p q (fun k => { k with rxWrongPort := k.rxWrongPort + 1 }) fun _ => rfl
    · split
      · change ((s.oversizeFrame p e _ _).ports.get q).count.rxHop = _
        rw [oversizeFrame_eq, (countUnderMark_rest ..).1]
      · split
        · change ((s.policeFrame p e _).ports.get q).count.rxHop = _
          rw [policeFrame_eq, (countUnderMark_rest ..).1]
        · refine (congrArg PortCounters.rxHop (acceptFrame_count ..)).trans ?_
          split <;> rfl

end

/-- Settles O21: the hop check stands first, and no operation after it touches RX_HOP. -/
theorem hopLimitZeroIsDiscarded : Obligations.HopLimitZeroIsDiscarded := by
  intro s p h payload held
  dsimp only
  refine ⟨fun hh => ?_, fun hh q => classify_rxHop hh q⟩
  rw [classify_hopZero hh]
  exact ⟨rfl, rfl, rfl, onCount_add (fun k x => { k with rxHop := k.rxHop + x }) (fun k => by simp) s p⟩

/-- Settles O22, check by check, each from the equation of the classifier where that check is the first to fail. -/
theorem classifierRefusesByTheFirstFailingCheck : Obligations.ClassifierRefusesByTheFirstFailingCheck := by
  intro s p h payload held hh
  dsimp only
  refine ⟨fun he => ?_, fun e r he hr => ⟨fun hp => ?wrongPort, fun hp hl => ?oversize, fun hp hl hb h0 => ?policed⟩⟩
  · obtain ⟨hports, hstore, hown, hrecords⟩ := unknownStream_rest s p (streamNo h)
    have hmarks := unknownStream_marks s p (streamNo h)
    rw [classify_unknown hh he]
    refine ⟨⟨returnBlocks_store hstore held, hown⟩, hrecords, ?_, fun q hq => ?_, unknownStream_events s p (streamNo h), fun q => ?_⟩
    · exact (congrArg (PerPort.get · p) hmarks).trans (by simp)
    · exact (congrArg (PerPort.get · q) hmarks).trans (by simp [hq])
    · exact (congrArg (PerPort.get · q) hports).trans
        (onCount_add (fun k x => { k with rxUnknown := k.rxUnknown + x }) (fun k => by simp) s p q)
  case wrongPort =>
    rw [classify_wrongPort hh he hp]
    exact ⟨⟨rfl, rfl⟩, rfl, rfl, onCount_add (fun k x => { k with rxWrongPort := k.rxWrongPort + x }) (fun k => by simp) s p⟩
  case oversize =>
    rw [classify_oversize hh he hr hp hl, oversizeFrame_eq, streamEntry_stream he]
    exact countUnderMark_discards held hr (fun _ => rfl) (fun _ => rfl) (by split <;> rfl)
  case policed =>
    rw [classify_policed hh he hr hp hl ⟨hb, h0⟩, policeFrame_eq, streamEntry_stream he]
    exact countUnderMark_discards held hr (fun _ => rfl) (fun _ => rfl) (by split <;> rfl)

end Sys2Proof.Machine
end

section
/-! STAGE_WINDOW and STAGE_PARAMS (R48 to R50): what a staging request in turn comes to, the judgements case by case, and the obligations on
them. -/

namespace Sys2Proof.Machine

open Sys2Proof

/-! ### A staging request in turn, with no commit armed (R45) -/

section
variable {s : State} {r : RequestHead} {n : Nat} {x : Session} {code : Byte} {judge : Configuration → Judgement}

theorem stageRequest_inTurn (h : s.EditTurn r n x) (hn : n ≤ 126) (ha : s.cfg.armed = none) :
    s.stageRequest r code (bodyLength r n) judge =
      ((s.renewLease r.source).setCfg (s.cfg.stage (judge s.cfg.staged))).answer r code (judge s.cfg.staged).answer true := by
  have hcfg : (s.renewLease r.source).cfg = s.cfg := (renewLease_kept s r.source).2.1
  simp only [State.stageRequest, serveRequest_inTurn h.toInTurn hn code true fun _ => h.edit, hcfg, ha, Option.isSome_none,
    Bool.false_eq_true, if_false]

/-- A request the judgement refuses is answered with the refusal, and nothing but the lease is touched. -/
theorem stageRequest_refused (h : s.EditTurn r n x) (hn : n ≤ 126) (ha : s.cfg.armed = none) {status : Status} {body : List Byte}
    (hj : judge s.cfg.staged = refuse status body) :
    (taken s fun s => s.stageRequest r code (bodyLength r n) judge) = answered (s.renewLease r.source) r code status body := by
  rw [taken_running h.running, stageRequest_inTurn h hn ha, hj]
  rfl

/-- A request the judgement takes puts the written copy in the staged one's place and sets the edited mark. -/
theorem stageRequest_written (h : s.EditTurn r n x) (hn : n ≤ 126) (ha : s.cfg.armed = none) {c : Configuration} {body : List Byte}
    (hj : judge s.cfg.staged = write c body) :
    (taken s fun s => s.stageRequest r code (bodyLength r n) judge) =
      answered ((s.renewLease r.source).setCfg { s.cfg with staged := c, edited := true }) r code .ok body := by
  rw [taken_running h.running, stageRequest_inTurn h hn ha, hj]
  rfl

end

/-! ### The first failing field -/

@[simp] theorem firstFailing_nil : firstFailing [] = none := rfl

@[simp] theorem firstFailing_cons (pos : Nat) (ok : Bool) (fields : List (Nat × Bool)) :
    firstFailing ((pos, ok) :: fields) = if ok then firstFailing fields else some pos := by
  cases ok <;> rfl

/-! ### Obligations that follow a chain of checks -/

/-- A value judged by a check carries what the obligation says of each outcome of that check. -/
theorem ite_of_eq_ite {α : Type} {P Q R : Prop} [Decidable P] {a b c : α} (h : a = if P then b else c) (pos : a = b → Q)
    (neg : a = c → R) : if P then Q else R := by
  split
  · next hP => exact pos (h.trans (if_pos hP))
  · next hP => exact neg (h.trans (if_neg hP))

/-! ### Keys and the order of the schedule (R1) -/

theorem Window.sameKey_iff {v w : Window} : v.sameKey w = true ↔ v.port = w.port ∧ v.start = w.start := by
  simp [Window.sameKey]

theorem Window.before_iff {v w : Window} : v.before w = true ↔
    (portCode v.port).toNat < (portCode w.port).toNat ∨ v.port = w.port ∧ v.start < w.start := by
  simp [Window.before]

theorem Window.before_trans {u v w : Window} (h : u.before v = true) (k : v.before w = true) : u.before w = true := by
  rw [Window.before_iff] at *
  rcases h with h | ⟨hp, h⟩
  · rcases k with k | ⟨kp, k⟩
    · exact .inl (h.trans k)
    · exact .inl (kp ▸ h)
  · rcases k with k | ⟨kp, k⟩
    · exact .inl (hp ▸ k)
    · exact .inr ⟨hp.trans kp, h.trans k⟩

/-- A window that comes later in the schedule has another key. -/
theorem Window.not_sameKey_of_before {v w : Window} (h : w.before v = true) : ¬v.sameKey w = true := by
  rw [Window.before_iff] at h
  rw [Window.sameKey_iff]
  rintro ⟨hp, hs⟩
  rw [hp, hs] at h
  omega

theorem Window.before_of_sameKey {v w x : Window} (h : v.sameKey w = true) (k : v.before x = true) : w.before x = true := by
  obtain ⟨hp, hs⟩ := Window.sameKey_iff.1 h
  rwa [Window.before, hp, hs] at k

/-- In a listed schedule, a window put in its place joins the windows of other keys. -/
theorem mem_putWindow {w v : Window} {ws : List Window} (h : ws.Pairwise fun a b => a.before b = true) :
    v ∈ putWindow w ws ↔ v = w ∨ v ∈ ws ∧ ¬v.sameKey w = true := by
  induction ws with
  | nil => simp [putWindow]
  | cons x xs ih =>
    obtain ⟨hx, hxs⟩ := List.pairwise_cons.1 h
    unfold putWindow
    split
    case isTrue hk =>
      have later : ∀ y ∈ xs, ¬y.sameKey w = true := fun y hy =>
        Window.not_sameKey_of_before (Window.before_of_sameKey hk (hx y hy))
      grind
    case isFalse hk =>
      split
      case isTrue hb =>
        have later : ∀ y ∈ xs, ¬y.sameKey w = true := fun y hy =>
          Window.not_sameKey_of_before (Window.before_trans hb (hx y hy))
        grind
      case isFalse hb =>
        have hxw : v = x → ¬v.sameKey w = true := fun h => h ▸ hk
        rw [List.mem_cons, List.mem_cons, ih hxs]
        tauto

/-! ### STAGE_WINDOW PUT, check by check (R48) -/

theorem any_sameKey_eq_false {w : Window} {ws : List Window} :
    ws.any (·.sameKey w) = false ↔ ∀ v ∈ ws, ¬(v.port = w.port ∧ v.start = w.start) := by
  simp only [List.any_eq_false, Window.sameKey_iff]

/-- The windows of a window's port, but the one of its own key, that it overlaps, in start order (R48). -/
def overlapping (c : Configuration) (w : Window) : List Window :=
  ((portWindows c w.port).filter fun v => v.start ≠ w.start).filter fun v => v.overlaps w

/-- The overlap the gate looks for is the first of these. -/
theorem find?_overlap (c : Configuration) (w : Window) :
    ((portWindows c w.port).find? fun v => !v.sameKey w && v.overlaps w) = (overlapping c w).head? := by
  rw [overlapping, List.filter_filter, List.head?_filter]
  refine List.find?_congr fun v hv => ?_
  have hp : v.port = w.port := by simpa using (List.mem_filter.1 hv).2
  simp [Window.sameKey, hp, Bool.and_comm]

/-- The range step by field: the port, then the end, then the classes. -/
theorem firstFailing_windowBodyFields (b : WindowBody) : firstFailing (windowBodyFields b) =
    if portOf b.port = none then some 1
    else if 12499992 < b.start.toNat + b.length.toNat then some 3
    else if 16 ≤ b.classes.toNat then some 4
    else none := by
  cases hp : portOf b.port with
  | none => simp [windowBodyFields, hp]
  | some p =>
    simp only [windowBodyFields, hp, firstFailing_cons, firstFailing_nil, Option.isSome_some, latestStop, decide_eq_true_eq,
      if_true, reduceCtorEq, if_false, ← not_lt, ite_not]

theorem judgeWindowPut_noPort {b : WindowBody} {c : Configuration} (hp : portOf b.port = none) :
    judgeWindowPut b c = refuse .range [1] := by
  rw [judgeWindowPut, firstFailing_windowBodyFields, if_pos hp]
  rfl

theorem windowBodyWindow_eq {b : WindowBody} {p : Port} (hp : portOf b.port = some p) :
    windowBodyWindow b = ⟨p, b.start.toNat, b.length.toNat, classSetOf b.classes⟩ := by
  rw [windowBodyWindow, hp]
  rfl

/-- The checks on the window `w` that a body of a known port carries. -/
theorem judgeWindowPut_port {b : WindowBody} {c : Configuration} {w : Window} (hp : portOf b.port = some w.port)
    (hw : windowBodyWindow b = w) : judgeWindowPut b c =
      if 12499992 < b.start.toNat + b.length.toNat then refuse .range [3]
      else if 16 ≤ b.classes.toNat then refuse .range [4]
      else if w.length < 32 then refuse .invalid [3, 0, 0, 0, 0]
      else if w.classes = Quad.fill false then refuse .invalid [4, 0, 0, 0, 0]
      else if w.port ≠ .t ∧ w.start < 32 then refuse .invalid [5, 0, 0, 0, 0]
      else
        (overlapping c w).head?.elim
          (if (∀ v ∈ c.windows, ¬(v.port = w.port ∧ v.start = w.start)) ∧ 64 ≤ c.windows.length then refuse .tableFull []
            else write { c with windows := putWindow w c.windows } [])
          fun v => invalid 6 v.start := by
  rw [judgeWindowPut, firstFailing_windowBodyFields, if_neg (by simp [hp]), hw]
  by_cases hstop : 12499992 < b.start.toNat + b.length.toNat
  · simp only [if_pos hstop]
    rfl
  by_cases hcls : 16 ≤ b.classes.toNat
  · simp only [if_neg hstop, if_pos hcls]
    rfl
  simp only [if_neg hstop, if_neg hcls, find?_overlap, any_sameKey_eq_false]
  cases (overlapping c w).head? <;> rfl

/-- Settles O45: the judgement's checks in order (`judgeWindowPut_port`), and the membership of the schedule a window is put into
(`mem_putWindow`), which `ConfigInv` lists in order. -/
theorem stageWindowPutAddsTheWindow : Obligations.StageWindowPutAddsTheWindow := by
  intro s r x b h ha
  have refused {status : Status} {body : List Byte} (hj : judgeWindowPut b s.cfg.staged = refuse status body) :
      exec (.stageWindowPut r b) s = answered (s.renewLease r.source) r 0x11 status body :=
    stageRequest_refused h (by decide) ha hj
  dsimp only
  split
  next hp => exact refused (judgeWindowPut_noPort hp)
  next p hp =>
    refine ite_of_eq_ite (judgeWindowPut_port (w := ⟨p, _, _, _⟩) hp (windowBodyWindow_eq hp)) refused fun hj =>
      ite_of_eq_ite hj refused fun hj => ite_of_eq_ite hj refused fun hj => ite_of_eq_ite hj refused fun hj =>
      ite_of_eq_ite hj refused fun hj => ?_
    split
    next v rest hv =>
      have hov : overlapping s.cfg.staged ⟨p, b.start.toNat, b.length.toNat, classSetOf b.classes⟩ = v :: rest := hv
      rw [hov] at hj
      exact refused hj
    next hv =>
      have hov : overlapping s.cfg.staged ⟨p, b.start.toNat, b.length.toNat, classSetOf b.classes⟩ = [] := hv
      rw [hov] at hj
      refine ite_of_eq_ite hj refused fun hj => ⟨_, stageRequest_written h (by decide) ha hj, rfl, rfl, fun hinv v => ?_⟩
      obtain ⟨-, ⟨-, -, -, -, hlisted, -⟩, -⟩ := hinv
      rw [mem_putWindow hlisted, Window.sameKey_iff]

/-! ### STAGE_WINDOW DELETE and CLEAR_PORT (R49) -/

section
variable {port : Byte} {start : Word} {c : Configuration} {p : Port}

theorem judgeWindowDelete_noPort (hp : portOf port = none) : judgeWindowDelete port start c = refuse .range [1] := by
  rw [judgeWindowDelete, hp]

theorem judgeWindowDelete_port (hp : portOf port = some p) : judgeWindowDelete port start c =
    if ∀ w ∈ c.windows, ¬(w.port = p ∧ w.start = start.toNat) then refuse .notFound []
    else write { c with windows := c.windows.filter fun w => !(decide (w.port = p) && decide (w.start = start.toNat)) } [] := by
  have hany : (c.windows.any fun w => decide (w.port = p) && decide (w.start = start.toNat)) = true ↔
      ¬∀ w ∈ c.windows, ¬(w.port = p ∧ w.start = start.toNat) := by
    simp
  simp only [judgeWindowDelete, hp, hany, ite_not]

theorem judgeWindowClear_noPort (hp : portOf port = none) : judgeWindowClear port c = refuse .range [1] := by
  rw [judgeWindowClear, hp]

theorem judgeWindowClear_port (hp : portOf port = some p) : judgeWindowClear port c =
    write { c with windows := c.windows.filter fun w => w.port ≠ p } [BitVec.ofNat 8 (portWindows c p).length] := by
  rw [judgeWindowClear, hp]
  rfl

end

/-- Settles O46, from the equations of the two judgements. -/
theorem stageWindowDeleteAndClearPort : Obligations.StageWindowDeleteAndClearPort := by
  intro s r x port ha
  dsimp only
  refine ⟨fun h start => ?delete, fun h => ?clear⟩
  case delete =>
    split
    next hp => exact stageRequest_refused h (by decide) ha (judgeWindowDelete_noPort hp)
    next p hp =>
      exact ite_of_eq_ite (judgeWindowDelete_port hp) (stageRequest_refused h (by decide) ha)
        (stageRequest_written h (by decide) ha)
  case clear =>
    split
    next hp => exact stageRequest_refused h (by decide) ha (judgeWindowClear_noPort hp)
    next p hp => exact stageRequest_written h (by decide) ha (judgeWindowClear_port hp)

/-! ### STAGE_PARAMS (R50) -/

/-- One step along the parameters: the first failing one is this one where its carried value is out of range, and otherwise the first of those
after it. -/
theorem firstFailing_carried {α : Type} {pos : Nat} {v : Option α} {f : α → Bool} {fields : List (Nat × Bool)} {o : Option Nat}
    {inRange : α → Prop} {Q R : Prop} (ho : o = firstFailing (carried pos v f :: fields)) (hf : ∀ y, f y = true ↔ inRange y)
    (here : o = some pos → Q) (later : o = firstFailing fields → R) :
    ((∃ y, v = some y ∧ ¬inRange y) → Q) ∧ (¬(∃ y, v = some y ∧ ¬inRange y) → R) := by
  have hout : (∃ y, v = some y ∧ ¬inRange y) ↔ v.all f = false := by cases v <;> simp [← hf]
  rw [hout, Bool.not_eq_false]
  exact ⟨fun h => here (ho.trans (by simp [carried, h])), fun h => later (ho.trans (by simp [carried, h]))⟩

theorem judgeParams_range {b : ParamsBody} {c : Configuration} {pos : Nat} (h : firstFailing (paramsBodyFields b) = some pos) :
    judgeParams b c = refuse .range [BitVec.ofNat 8 pos] := by
  rw [judgeParams, h]
  rfl

theorem judgeParams_pass {b : ParamsBody} {c : Configuration} (h : firstFailing (paramsBodyFields b) = none) :
    judgeParams b c = write { c with params := applyParams b c.params } [] := by
  rw [judgeParams, h]

/-- A carried number is written, and one that is not carried stays. -/
theorem getD_map_toNat {w : Nat} (v : Option (BitVec w)) (old : Nat) : (v = none → (v.map (·.toNat)).getD old = old) ∧
    ∀ y, v = some y → (v.map (·.toNat)).getD old = y.toNat :=
  ⟨fun h => by rw [h]; rfl, fun y h => by rw [h]; rfl⟩

/-- What `applyParams` does to the policy, the one parameter that is no number. -/
theorem applyParams_policy (b : ParamsBody) (p : Params) : (b.policy = none → (applyParams b p).policy = p.policy) ∧
    (b.policy = some 0 → (applyParams b p).policy = .pass) ∧ (b.policy = some 1 → (applyParams b p).policy = .block) := by
  refine ⟨fun h => ?_, fun h => ?_, fun h => ?_⟩ <;> rw [applyParams, h] <;> rfl

theorem paramsBodySize_le (b : ParamsBody) : paramsBodySize b ≤ 126 := by
  grind [paramsBodySize, Bool.toNat_le]

/-- Settles O47: one step of `firstFailing_carried` for each parameter of R42, in order. -/
theorem stageParamsWritesAllOrNone : Obligations.StageParamsWritesAllOrNone := by
  intro s r x b h ha
  have refused (pos : Nat) (hpos : firstFailing (paramsBodyFields b) = some pos) :
      exec (.stageParams r b) s = answered (s.renewLease r.source) r 0x12 .range [BitVec.ofNat 8 pos] :=
    stageRequest_refused h (paramsBodySize_le b) ha (judgeParams_range hpos)
  dsimp only
  refine firstFailing_carried rfl ?_ (refused 1) fun ho => firstFailing_carried ho ?_ (refused 2) fun ho =>
    firstFailing_carried ho ?_ (refused 3) fun ho => firstFailing_carried ho ?_ (refused 4) fun ho =>
    firstFailing_carried ho ?_ (refused 5) fun ho => firstFailing_carried ho ?_ (refused 6) fun ho =>
    firstFailing_carried ho ?_ (refused 7) fun ho => firstFailing_carried ho ?_ (refused 8) fun ho =>
    ⟨applyParams b s.cfg.staged.params, stageRequest_written h (paramsBodySize_le b) ha (judgeParams_pass ho),
      getD_map_toNat .., getD_map_toNat .., getD_map_toNat .., getD_map_toNat .., getD_map_toNat .., getD_map_toNat ..,
      getD_map_toNat .., applyParams_policy b _⟩
  all_goals simp

end Sys2Proof.Machine
end

section
/-! ABORT (R58): a request that requires EDIT from a session without it, ABORT case by case, and the obligation on it. -/

namespace Sys2Proof.Machine

open Sys2Proof

/-- A request in turn that requires EDIT is answered MODE in a session of another mode, with nothing but the lease touched (R142). -/
theorem serveRequest_noEdit {s : State} {r : RequestHead} {n : Nat} {x : Session} (h : s.InTurn r n x) (hn : n ≤ 126)
    (hm : x.mode ≠ .edit) (code : Byte) (act : State → State × Reply) :
    s.serveRequest r code true (bodyLength r n) act = (s.renewLease r.source).answer r code (reply .mode []) true := by
  have hl : bodyLength r n = true := by simp [bodyLength, h.length]
  simp [State.serveRequest, h.source, badLength_of_inTurn h hn, sessionOf_renewLease, h.session, hl, h.tag, hm]

section
variable {c : ConfigUnit} {option : Byte} {expected : Half}

theorem abort_range (ho : option ≠ 0 ∧ option ≠ 1) : c.abort option expected = (c, reply .range []) := by
  have h : 1 < option.toNat := by bv_omega
  rw [ConfigUnit.abort, if_pos h]

theorem abort_tooLate (ho : ¬(option ≠ 0 ∧ option ≠ 1)) (hg : expected ≠ c.generation) :
    c.abort option expected = (c, reply .tooLate (be16 c.generation)) := by
  have h : ¬1 < option.toNat := by bv_omega
  rw [ConfigUnit.abort, if_neg h, if_pos hg]

/-- An ABORT that passes disarms, and with DISCARD takes the staged work with it. -/
theorem abort_pass (ho : ¬(option ≠ 0 ∧ option ≠ 1)) (hg : ¬expected ≠ c.generation) : c.abort option expected =
    (if option = 1 then { c with staged := c.active, armed := none, edited := false } else { c with armed := none },
      c.armed.elim (reply .ok []) fun target => reply .disarmed (be32 target)) := by
  have h : ¬1 < option.toNat := by bv_omega
  rw [ConfigUnit.abort, if_neg h, if_neg hg]
  obtain ⟨active, staged, generation, armed, edited⟩ := c
  cases armed <;> simp [ConfigUnit.discardIf]

end

/-- ABORT in turn in an EDIT session leaves and answers what the configuration unit makes of it. -/
theorem exec_abort_inTurn {s : State} {r : RequestHead} {x : Session} {option : Byte} {expected : Half} {c : ConfigUnit}
    {status : Status} {body : List Byte} (h : s.InTurn r 3 x) (hm : x.mode = .edit)
    (hj : s.cfg.abort option expected = (c, reply status body)) :
    exec (.abort r option expected) s = answered ((s.renewLease r.source).setCfg c) r 0x14 status body := by
  have hcfg : (s.renewLease r.source).cfg = s.cfg := (renewLease_kept s r.source).2.1
  change (taken s fun s => s.abortRequest r option expected) = _
  rw [taken_running h.running, State.abortRequest, serveRequest_inTurn h (by decide) codeAbort true fun _ => hm, hcfg, hj]
  rfl

/-- Settles O50, answer by answer in the order of R58's steps. -/
theorem abortAnswersByGeneration : Obligations.AbortAnswersByGeneration := by
  intro s r x option expected h
  dsimp only
  split
  next hm =>
    have hne : x.mode ≠ .edit := by simp [hm]
    change (taken s fun s => s.abortRequest r option expected) = _
    rw [taken_running h.running, State.abortRequest, serveRequest_noEdit h (by decide) hne]
    rfl
  next hm =>
    have hedit : x.mode = .edit := by
      cases hx : x.mode with
      | observe => exact absurd hx hm
      | edit => rfl
    split
    next ho => exact exec_abort_inTurn h hedit (abort_range ho)
    next ho =>
      split
      next hg => exact exec_abort_inTurn h hedit (abort_tooLate ho hg)
      next hg =>
        have hpass := abort_pass ho hg
        cases ht : s.cfg.armed <;> rw [ht] at hpass <;> exact exec_abort_inTurn h hedit hpass

end Sys2Proof.Machine
end

section
/-! DRAIN and RESUME (R124, R126, R129): what starting and completing a drain make of a port's unit, both requests check by check, and the
obligation on them. -/

namespace Sys2Proof.Machine

open Sys2Proof

/-! ### A request in turn, by what its unit hands back -/

/-- A request in turn leaves and answers what the unit that owns it hands back on the renewed state. -/
theorem taken_serveRequest_inTurn {s u : State} {r : RequestHead} {n : Nat} {x : Session} {code : Byte} {edit : Bool}
    {act : State → State × Reply} {status : Status} {body : List Byte} (h : s.InTurn r n x) (hn : n ≤ 126)
    (he : edit = true → x.mode = .edit) (hact : act (s.renewLease r.source) = (u, reply status body)) :
    (taken s fun s => s.serveRequest r code edit (bodyLength r n) act) = answered u r code status body := by
  rw [taken_running h.running, serveRequest_inTurn h hn code edit he, hact]
  rfl

/-! ### Operands -/

theorem portCode_of_portOf {b : Byte} {p : Port} (h : portOf b = some p) : portCode p = b := by
  unfold portOf at h
  simpa using List.find?_some h

/-- The option that flushes, or the other one. -/
def DrainOption.of (flush : Prop) [Decidable flush] : DrainOption := if flush then .flush else .empty

theorem drainOptionOf_eq (x : Byte) : drainOptionOf x = if 1 < x.toNat then none else some (.of (x = 0)) := by
  unfold drainOptionOf DrainOption.of
  by_cases h0 : x = 0
  · simp [h0]
  · have h1 : x = 1 ↔ ¬1 < x.toNat := by bv_omega
    simp only [h0, h1, if_false, ite_not]

/-- The detail of a drain that completed holds reason 0 above the flushed count (11.3). -/
theorem drainDetail_complete (n : Nat) : drainDetail false n = (BitVec.ofNat 24 n).setWidth 32 :=
  (BitVec.setWidth_eq_append (by decide)).symm

/-! ### The start of a drain (R124, step 4) -/

/-- The descriptors that the start of a drain flushes. -/
def PortUnit.flushedAtStart (v : PortUnit) (flush : Prop) [Decidable flush] : Nat := if flush then v.queued else 0

/-- A port's unit as the start of a drain leaves it. `startDrain_rest` ties it to the model. -/
def PortUnit.drainStarted (v : PortUnit) (flush : Prop) [Decidable flush] (cycle : Word) : PortUnit :=
  { v with
    queues := if flush then Quad.fill [] else v.queues
    count := { v.count with txFlushed := v.count.txFlushed + wordOf (v.flushedAtStart flush) }
    admin := .draining
    drain := some ⟨.of flush, cycle, v.flushedAtStart flush⟩ }

/-- A flush touches neither the own queue nor the notices. -/
theorem flushQueues_rest (s : State) (p : Port) : (s.flushQueues p).own = s.own ∧ (s.flushQueues p).events = s.events := by
  have released : ∀ (ds : List Descriptor) (t : State),
      (ds.foldl (fun t d => t.release d) t).own = t.own ∧ (ds.foldl (fun t d => t.release d) t).events = t.events := by
    intro ds
    induction ds with
    | nil => exact fun _ => ⟨rfl, rfl⟩
    | cons d ds ih => exact fun t => ih (t.release d)
  exact released _ (s.onPort p _)

theorem startDrain_rest (s : State) (p : Port) (flush : Prop) [Decidable flush] :
    (s.startDrain p (.of flush)).ports = s.ports.set p ((s.ports.get p).drainStarted flush s.clock.number) ∧
    (s.startDrain p (.of flush)).own = s.own ∧ (s.startDrain p (.of flush)).events = s.events := by
  by_cases hf : flush
  · simp [State.startDrain, PortUnit.drainStarted, PortUnit.flushedAtStart, DrainOption.of, hf, flushQueues_ports,
      flushQueues_rest, PerPort.set_set]
  · simp [State.startDrain, PortUnit.drainStarted, PortUnit.flushedAtStart, DrainOption.of, hf, wordOf]

/-! ### The completion test (R126) -/

theorem queuesEmpty_iff (v : PortUnit) : v.queuesEmpty = true ↔ ∀ c, v.queues.get c = [] := by
  simp only [PortUnit.queuesEmpty, List.all_eq_true, Quad.mem_toList, List.isEmpty_iff, forall_exists_index,
    forall_apply_eq_imp_iff]

/-- A drain that was just started completes at once where the transmitter is idle and the queues are flushed or were empty. -/
theorem drainStarted_completes_iff (v : PortUnit) (flush : Prop) [Decidable flush] (cycle : Word) :
    ((v.drainStarted flush cycle).admin = .draining ∧ (v.drainStarted flush cycle).tx.isIdle = true ∧
        (v.drainStarted flush cycle).queuesEmpty = true) ↔ v.tx = .idle ∧ (flush ∨ ∀ c, v.queues.get c = []) := by
  rw [isIdle_iff, queuesEmpty_iff]
  by_cases hf : flush <;> simp [PortUnit.drainStarted, hf]

/-! ### What a DRAIN that is taken leaves (R124, R126) -/

section
variable {s : State} {p : Port} {flush : Prop} [Decidable flush]

/-- A drain that was just started, put to the completion test. -/
theorem startDrain_completeDrain : (s.startDrain p (.of flush)).completeDrain p =
    if (s.ports.get p).tx = .idle ∧ (flush ∨ ∀ c, (s.ports.get p).queues.get c = []) then
      ((s.startDrain p (.of flush)).onPort p fun u => { u with admin := .drained, drain := none }).raise .drainDone (some p) none
        (drainDetail false ((s.ports.get p).flushedAtStart flush))
    else s.startDrain p (.of flush) := by
  simp only [State.completeDrain, (startDrain_rest ..).1, PerPort.get_set, if_true, drainStarted_completes_iff]
  rfl

/-- The port of a DRAIN that is taken: DRAINING with its record, or at once DRAINED without one. -/
theorem startDrain_completeDrain_port {done : Prop} {_ : Decidable done}
    (hdone : done ↔ (s.ports.get p).tx = .idle ∧ (flush ∨ ∀ c, (s.ports.get p).queues.get c = [])) :
    ((s.startDrain p (.of flush)).completeDrain p).ports.get p =
      { (s.ports.get p).drainStarted flush s.clock.number with
        admin := if done then .drained else .draining
        drain := if done then none else some ⟨.of flush, s.clock.number, (s.ports.get p).flushedAtStart flush⟩ } := by
  have hports := (startDrain_rest s p flush).1
  simp only [startDrain_completeDrain, ← hdone]
  split
  · simp [State.raise, State.raiseAt, hports]
  · rw [hports, PerPort.get_set, if_pos rfl]
    rfl

theorem startDrain_completeDrain_otherPort {q : Port} (hq : q ≠ p) :
    ((s.startDrain p (.of flush)).completeDrain p).ports.get q = s.ports.get q := by
  have hports := (startDrain_rest s p flush).1
  rw [startDrain_completeDrain]
  split <;> simp [State.raise, State.raiseAt, hports, hq]

theorem startDrain_completeDrain_events {done : Prop} {_ : Decidable done}
    (hdone : done ↔ (s.ports.get p).tx = .idle ∧ (flush ∨ ∀ c, (s.ports.get p).queues.get c = [])) :
    ((s.startDrain p (.of flush)).completeDrain p).events =
      if done then
        s.events.raise .drainDone (some p) none s.clock.number
          (BitVec.ofNat 24 ((s.ports.get p).flushedAtStart flush) |>.setWidth 32)
      else s.events := by
  obtain ⟨-, -, hevents⟩ := startDrain_rest s p flush
  have hclock := (startDrain_kept s p (.of flush)).clock
  simp only [startDrain_completeDrain, ← hdone]
  split
  · simp [State.raise, State.raiseAt, hevents, hclock, drainDetail_complete]
  · exact hevents

theorem startDrain_completeDrain_own : ((s.startDrain p (.of flush)).completeDrain p).own = s.own := by
  obtain ⟨-, hown, -⟩ := startDrain_rest s p flush
  rw [startDrain_completeDrain]
  split <;> exact hown

end

/-! ### DRAIN as port control carries it out -/

section
variable {s : State} {port option : Byte} {p : Port}

theorem takeDrain_noPort (hp : portOf port = none) : s.takeDrain port option = (s, reply .range []) := by
  simp only [State.takeDrain, hp]

theorem takeDrain_noOption (hp : portOf port = some p) (ho : 1 < option.toNat) :
    s.takeDrain port option = (s, reply .range []) := by
  simp only [State.takeDrain, hp, drainOptionOf_eq, if_pos ho]

theorem takeDrain_portState (hp : portOf port = some p) (ho : ¬1 < option.toNat)
    (hs : p = .t ∨ (s.ports.get p).admin ≠ .opened) :
    s.takeDrain port option = (s, portStateReply (s.ports.get p)) := by
  simp only [State.takeDrain, hp, drainOptionOf_eq, if_neg ho, if_pos hs]

/-- A DRAIN that passes its checks starts the drain, puts it to the completion test, and answers with the admin state that comes of it. -/
theorem takeDrain_pass {done : Prop} {_ : Decidable done} (hp : portOf port = some p) (ho : ¬1 < option.toNat)
    (hs : ¬(p = .t ∨ (s.ports.get p).admin ≠ .opened))
    (hdone : done ↔ (s.ports.get p).tx = .idle ∧ (option = 0 ∨ ∀ c, (s.ports.get p).queues.get c = [])) :
    s.takeDrain port option =
      ((s.startDrain p (.of (option = 0))).completeDrain p,
        reply .ok ([port, if done then 2 else 1] ++ be32 (wordOf ((s.ports.get p).flushedAtStart (option = 0))))) := by
  simp only [State.takeDrain, hp, drainOptionOf_eq, if_neg ho, if_neg hs, startDrain_completeDrain_port hdone,
    (startDrain_rest ..).1, PerPort.get_set, if_true, portCode_of_portOf hp, apply_ite adminByte]
  rfl

end

/-! ### RESUME as port control carries it out -/

section
variable {s : State} {port : Byte} {p : Port}

theorem takeResume_noPort (hp : portOf port = none) : s.takeResume port = (s, reply .range []) := by
  simp only [State.takeResume, hp]

theorem takeResume_opened (hp : portOf port = some p) (ha : (s.ports.get p).admin = .opened) :
    s.takeResume port = (s, reply .portState [0, linkByte (s.ports.get p).link]) := by
  simp only [State.takeResume, hp, ha, if_true, portStateReply, adminByte]

theorem takeResume_pass (hp : portOf port = some p) (ha : (s.ports.get p).admin ≠ .opened) :
    s.takeResume port =
      (s.onPort p fun u => { u with admin := .opened, drain := none },
        reply .ok [port, adminByte (s.ports.get p).admin, byteOf (s.ports.get p).queued]) := by
  simp only [State.takeResume, hp, if_neg ha, portCode_of_portOf hp]

end

/-! ### The obligation -/

/-- Settles O51, answer by answer in the order of the steps of R124 and R129. -/
theorem drainAndResume : Obligations.DrainAndResume := by
  refine ⟨fun s r x port option h => ?drain, fun s r x port h => ?resume⟩
  case drain =>
    have answers {u : State} {status : Status} {body : List Byte}
        (hact : (s.renewLease r.source).takeDrain port option = (u, reply status body)) :
        exec (.drain r port option) s = answered u r 0x20 status body :=
      taken_serveRequest_inTurn h.toInTurn (by decide) (fun _ => h.edit) hact
    dsimp only
    split
    next hp => exact answers (takeDrain_noPort hp)
    next p hp =>
      split
      next ho => exact answers (takeDrain_noOption hp ho)
      next ho =>
        split
        next hs => exact answers (takeDrain_portState hp ho hs)
        next hs =>
          let t := s.renewLease r.source
          have hkept : Kept t ((t.startDrain p (.of (option = 0))).completeDrain p) :=
            (startDrain_kept ..).trans (completeDrain_kept ..)
          exact ⟨_, answers (takeDrain_pass hp ho hs Iff.rfl), startDrain_completeDrain_port (s := t) Iff.rfl,
            fun q hq => startDrain_completeDrain_otherPort (s := t) hq, startDrain_completeDrain_events (s := t) Iff.rfl,
            startDrain_completeDrain_own (s := t), hkept.cfg, hkept.clock, hkept.mgmt⟩
  case resume =>
    have answers {u : State} {status : Status} {body : List Byte}
        (hact : (s.renewLease r.source).takeResume port = (u, reply status body)) :
        exec (.resume r port) s = answered u r 0x21 status body :=
      taken_serveRequest_inTurn h.toInTurn (by decide) (fun _ => h.edit) hact
    dsimp only
    split
    next hp => exact answers (takeResume_noPort hp)
    next p hp =>
      split
      next ha => exact answers (takeResume_opened hp ha)
      next ha => exact answers (takeResume_pass hp ha)

end Sys2Proof.Machine
end

section
/-! CLEAR_COUNTERS and RESTART (R144, R145): what a warm restart leaves once it has settled, the answer to a restart response with and
without a free slot, and the obligation on both requests. -/

namespace Sys2Proof.Machine

open Sys2Proof

/-! ### The own queue with nothing to send -/

/-- Removing stale heads leaves the own queue. -/
theorem dropStale_own (s : State) (p : Port) (c : Fin 4) : (s.dropStale p c).own = s.own := by
  refine List.foldlRecOn (motive := fun t : State => t.own = s.own) _ _ rfl fun t ht d _ => ?_
  have hreport := fun u : State => (reportLate_rest u s.cfg.active p d.stream d.reportLate s.clock.number 1).2.2.1
  exact (hreport _).trans ((countLate_foldl_rest s.cfg.active p [d] t).1.trans ht)

/-- The class queues are served without the own queue. -/
theorem tryClasses_own (fits : Nat → Bool) (p : Port) (cs : List (Fin 4)) (s : State) :
    (s.tryClasses fits p cs).own = s.own := by
  induction cs generalizing s with
  | nil => rfl
  | cons c cs ih =>
    have hdrop := dropStale_own s p c
    simp only [State.tryClasses]
    split
    · exact (ih _).trans hdrop
    · split
      · exact hdrop
      · exact (ih _).trans hdrop

theorem serve_own_nil {s : State} (ho : s.own = []) (fits : Nat → Bool) (own : Bool) (cs : List (Fin 4)) (p : Port) :
    (s.serve fits own cs p).own = [] := by
  simp only [State.serve, ho, tryClasses_own]

theorem choose_own_nil {s : State} (ho : s.own = []) (p : Port) : (s.choose p).own = [] := by
  unfold State.choose
  split
  · split
    · split
      · exact ho
      · exact serve_own_nil ho ..
    · exact serve_own_nil ho ..
    · exact serve_own_nil ho ..
  · exact ho

/-- Choices append nothing to the own queue. -/
theorem makeChoices_own_nil {s : State} (ho : s.own = []) : s.makeChoices.own = [] := by
  refine List.foldlRecOn (motive := fun t : State => t.own = []) _ _ ho fun t ht p _ => ?_
  unfold State.chooseIfDue
  split
  · exact choose_own_nil (by exact ht) p
  · exact ht

theorem completeDrains_own (s : State) : s.completeDrains.own = s.own := by
  refine List.foldlRecOn (motive := fun t : State => t.own = s.own) _ _ rfl fun t ht p _ => ?_
  unfold State.completeDrain
  dsimp only
  split <;> exact ht

/-- Without a sink the event unit sends nothing (R155, R156). -/
theorem eventWork_own {s : State} (hs : s.events.sink = none) : s.eventWork.own = s.own := by
  have hsink : s.queueOverflow.events.sink = none := (queueOverflow_follows s).sink.trans hs
  have hretransmit : s.queueOverflow.retransmit = s.queueOverflow :=
    retransmit_not_ready _ (by simp [State.retransmitReady, hsink])
  have hreport : s.queueOverflow.buildReport = s.queueOverflow :=
    buildReport_not_ready _ (by simp [State.reportReady, hsink])
  unfold State.eventWork
  rw [hretransmit, hreport]
  split <;> rfl

/-- With nothing in the own queue and no sink to report to, the steps that follow a command leave the own queue empty. -/
theorem settle_own_nil {s : State} (ho : s.own = []) (hs : s.events.sink = none) : (settle s).own = [] := by
  have hchoices : Follows s s.makeChoices := Follows.foldl chooseIfDue_follows _ _
  have hdrains : Follows s.makeChoices s.makeChoices.completeDrains := Follows.foldl completeDrain_follows _ _
  have hsink : s.makeChoices.completeDrains.events.sink = none := (hchoices.trans hdrains).sink.trans hs
  exact makeChoices_own_nil ((eventWork_own hsink).trans ((completeDrains_own _).trans (makeChoices_own_nil ho)))

/-! ### A warm restart, settled (R146) -/

theorem EventUnit.warm_sink (n : Word) : (EventUnit.warm n).sink = none := (raise_rest ..).1

/-- What the steps after a warm restart leave of it. -/
theorem settle_warmRestart (s : State) : (settle s.warmRestart).mgmt = ⟨Quad.fill none, false⟩ ∧
    (settle s.warmRestart).own = [] ∧ (settle s.warmRestart).clock = s.clock ∧ (settle s.warmRestart).cfg = s.cfg.warm :=
  have hkept := settle_kept s.warmRestart
  ⟨hkept.mgmt, settle_own_nil rfl (EventUnit.warm_sink _), hkept.clock, hkept.cfg⟩

/-! ### The answer to the first RESTART (R78, R145) -/

/-- A restart response that finds a free slot is recorded and joins the own queue. -/
theorem answer_marked_slotFree {s : State} (h : RequestHead) (c : Byte) {r : Reply} (hm : r.marked = true)
    (hf : s.slotsTaken < 8) : s.answer h c r true =
      (s.record h (responsePayload c r)).appendOwn (s.responseFrame h (responsePayload c r) true) := by
  have hfree : (s.record h (responsePayload c r)).slotFree = true := decide_eq_true hf
  simp only [State.answer, State.respond, hm, hfree, if_true, not_true_eq_false, and_false, if_false]
  rfl

/-- A restart response that finds no free slot is recorded and dropped, and the gate restarts at once. -/
theorem answer_marked_noSlot {s : State} (h : RequestHead) (c : Byte) {r : Reply} (hm : r.marked = true)
    (hf : 8 ≤ s.slotsTaken) : s.answer h c r true =
      ((s.record h (responsePayload c r)).respond h (responsePayload c r) true).warmRestart := by
  have hfull : (s.record h (responsePayload c r)).slotFree = false := decide_eq_false (Nat.not_lt.2 hf)
  simp [State.answer, hm, hfull]

/-! ### RESTART as the management unit carries it out -/

/-- With the mark already set a RESTART changes nothing and is answered in the ordinary way. -/
theorem takeRestart_again {s : State} (hp : s.mgmt.restartPending = true) : s.takeRestart = (s, reply .ok []) := by
  have hmgmt : { s.mgmt with restartPending := true } = s.mgmt := by rw [← hp]
  simp only [State.takeRestart, hmgmt, hp, Bool.not_true]
  rfl

/-- The gate with the pending-restart mark set. -/
def State.restartMarked (s : State) : State := { s with mgmt := { s.mgmt with restartPending := true } }

/-- The reply to the first RESTART: its response is the restart response. -/
def restartReply : Reply := { status := .ok, body := [], marked := true }

theorem takeRestart_first {s : State} (hp : s.mgmt.restartPending = false) :
    s.takeRestart = (s.restartMarked, restartReply) := by
  simp only [State.takeRestart, hp, Bool.not_false]
  rfl

/-- The first RESTART in turn sets the mark on the renewed state and answers with the restart response. -/
theorem exec_restart_first {s : State} {r : RequestHead} {x : Session} (h : s.EditTurn r 0 x)
    (hp : s.mgmt.restartPending = false) : exec (.restart r) s =
      .next (settle ((s.renewLease r.source).restartMarked.answer r codeRestart restartReply true)) := by
  have hfirst : (s.renewLease r.source).takeRestart = ((s.renewLease r.source).restartMarked, restartReply) :=
    takeRestart_first hp
  change (taken s fun s => s.restartRequest r) = _
  rw [taken_running h.running, State.restartRequest,
    serveRequest_inTurn h.toInTurn (by decide) codeRestart true fun _ => h.edit, hfirst]

/-! ### The obligation -/

/-- Settles O52: CLEAR_COUNTERS by the counters it writes, RESTART by whether the mark is set and whether a slot is free. -/
theorem clearCountersAndRestart : Obligations.ClearCountersAndRestart := by
  refine ⟨fun s r x h => ?clear, fun s r x h => ⟨fun hp => ?again, fun hp hf => ?sent, fun hp hf => ?dropped⟩⟩
  case clear =>
    have hexec : exec (.clearCounters r) s = answered (s.renewLease r.source).clearCounters r 0x22 .ok [] :=
      taken_serveRequest_inTurn h.toInTurn (by decide) (fun _ => h.edit) rfl
    exact ⟨_, hexec, rfl, rfl, rfl, fun p => PerPort.get_map .., rfl⟩
  case again =>
    exact taken_serveRequest_inTurn h.toInTurn (by decide) (fun _ => h.edit) (takeRestart_again hp)
  case sent =>
    let t := (s.renewLease r.source).restartMarked
    let payload := responsePayload codeRestart restartReply
    have hanswer := answer_marked_slotFree (s := t) r codeRestart (r := restartReply) rfl hf
    obtain ⟨hown, hports, -, hevents, -, -⟩ := appendOwn_rest (t.record r payload) (t.responseFrame r payload true)
    have hkept := appendOwn_kept (t.record r payload) (t.responseFrame r payload true)
    refine ⟨_, (exec_restart_first h hp).trans (by rw [hanswer]), ?_⟩
    refine ⟨congrArg Management.restartPending hkept.mgmt, hown, hports, hkept.cfg, hevents, hkept.clock, fun i => ?_⟩
    rw [hkept.mgmt]
    exact onSession_get ..
  case dropped =>
    let t := (s.renewLease r.source).restartMarked
    let payload := responsePayload codeRestart restartReply
    have hanswer := answer_marked_noSlot (s := t) r codeRestart (r := restartReply) rfl hf
    have hkept := respond_kept (t.record r payload) r payload true
    obtain ⟨hmgmt, hown, hclock, hcfg⟩ := settle_warmRestart ((t.record r payload).respond r payload true)
    refine ⟨_, (exec_restart_first h hp).trans (by rw [hanswer]), ?_⟩
    refine ⟨congrArg _ hmgmt, fun i => ?_, hown, hclock.trans hkept.clock, ?_⟩
    · rw [hmgmt]
      exact Quad.get_fill ..
    · rw [hcfg, hkept.cfg]
      rfl

end Sys2Proof.Machine
end

section
/-! Raised notices (R152): the overflow set with one more kind, a raise that is queued, a raise that is lost, and the obligation on both. -/

namespace Sys2Proof.Machine

open Sys2Proof

/-! ### The overflow set -/

/-- The list of kinds leaves none out. -/
theorem NoticeKind.mem_all (k : NoticeKind) : k ∈ NoticeKind.all := by
  cases k <;> decide

/-- The kinds an overflow set holds once a kind has joined it. -/
theorem mem_addKind {k x : NoticeKind} {ks : List NoticeKind} : x ∈ addKind k ks ↔ x = k ∨ x ∈ ks := by
  simp [addKind, NoticeKind.mem_all]

/-! ### The two outcomes of a raise -/

section
variable {e : EventUnit} (kind : NoticeKind) (port : Option Port) (stream : Option StreamNo) (cycle detail : Word)

/-- With an empty overflow set and a free ordinary place, a raised notice joins the tail of the queue. -/
theorem raise_queued (hset : e.overflowSet = []) (hroom : ordinaryCount e.queue < 31) :
    e.raise kind port stream cycle detail =
      { e with
        queue := e.queue ++ [⟨⟨e.lastAssigned + 1, kind, port, stream, cycle, detail⟩, false⟩]
        lastAssigned := e.lastAssigned + 1 } :=
  if_pos ⟨hset, hroom⟩

/-- With a kind in the overflow set or no free ordinary place, a raised notice is lost. -/
theorem raise_lost (h : e.overflowSet ≠ [] ∨ 31 ≤ ordinaryCount e.queue) :
    e.raise kind port stream cycle detail =
      { e with overflowSet := addKind kind e.overflowSet, lostCount := min (e.lostCount + 1) 65535 } :=
  if_neg fun ⟨hset, hroom⟩ => h.elim (· hset) (Nat.not_le_of_lt hroom)

end

/-! ### The obligation -/

/-- Settles O30, by whether the event unit has room for the notice. -/
theorem raisedNoticeIsQueuedOrLost : Obligations.RaisedNoticeIsQueuedOrLost := by
  intro e kind port stream cycle detail
  obtain ⟨hsink, hreport, htimer, hmark⟩ := raise_rest e kind port stream cycle detail
  refine ⟨hsink, hreport, htimer, hmark, fun hset hroom => ?queued, fun hfull => ?lost⟩
  case queued =>
    rw [raise_queued kind port stream cycle detail hset hroom]
    exact ⟨rfl, rfl, hset, rfl⟩
  case lost =>
    rw [raise_lost kind port stream cycle detail hfull]
    exact ⟨rfl, rfl, fun _ => mem_addKind, rfl⟩

end Sys2Proof.Machine
end

section
/-! What the requests other than OPEN can do: the effects of the units that own them, said once, and which row or delivered frame has which
effect. -/

namespace Sys2Proof.Machine

open Sys2Proof

/-- What the unit that owns a request may leave of the renewed state (R134, step 8). -/
inductive Carried (t : State) : State → Prop where
  | nothing : Carried t t
  | sessionEnd (i : Fin 4) : Carried t (t.endSession i)
  | free (n : Nat) : Carried t (t.useFree n)
  | acknowledged (n : Half) : Carried t (t.setEvents (t.events.ack n).1)
  | staged (j : Configuration → Judgement) (hj : StagingJudge j) (ha : t.cfg.armed = none) :
      Carried t (t.setCfg (t.cfg.stage (j t.cfg.staged)))
  | committed (n : Word) : Carried t (t.setCfg (t.cfg.commit t.clock.number n).1)
  | aborted (o : Byte) (e : Half) : Carried t (t.setCfg (t.cfg.abort o e).1)
  | drained (p : Port) (o : DrainOption) (hp : p ≠ .t) (ho : (t.ports.get p).admin = .opened) :
      Carried t ((t.startDrain p o).completeDrain p)
  | resumed (p : Port) : Carried t (t.onPort p fun u => { u with admin := .opened, drain := none })
  | cleared : Carried t t.clearCounters
  | restartMarked : Carried t t.restartMarked

/-- An act of a unit, whatever state it meets. -/
def RequestAct (act : State → State × Reply) : Prop := ∀ t, Carried t (act t).1

theorem RequestAct.answers (f : State → Reply) : RequestAct fun t => (t, f t) := fun _ => .nothing

theorem closeAct (h : RequestHead) : RequestAct fun t =>
    ((match sessionSlot t.mgmt.slots h.source with | some i => t.endSession i | none => t), reply .ok []) := by
  intro t
  cases hi : sessionSlot t.mgmt.slots h.source with
  | none => simpa only [hi] using Carried.nothing
  | some i => simpa only [hi] using Carried.sessionEnd i

theorem readPortAct (port : Byte) : RequestAct fun t =>
    match portOf port with
    | some p => ((if p ≠ .t ∧ (t.ports.get p).drain = none then t.useFree 8 else t), reply .ok (portBody t p))
    | none => (t, reply .range []) := by
  intro t
  dsimp only
  split
  · split
    · exact .free 8
    · exact .nothing
  · exact .nothing

/-- A READ that uses free values where a condition holds. -/
theorem freeAct (c : State → Prop) [DecidablePred c] (n : Nat) (f : State → Reply) :
    RequestAct fun t => ((if c t then t.useFree n else t), f t) := by
  intro t
  dsimp only
  split
  · exact .free n
  · exact .nothing

theorem ackAct (n : Half) : RequestAct fun t => (t.setEvents (t.events.ack n).1, (t.events.ack n).2) :=
  fun _ => .acknowledged n

theorem stageAct {j : Configuration → Judgement} (hj : StagingJudge j) : RequestAct fun t =>
    if t.cfg.armed.isSome then (t, reply .busyArmed [])
    else (t.setCfg (t.cfg.stage (j t.cfg.staged)), (j t.cfg.staged).answer) := by
  intro t
  dsimp only
  split
  · exact .nothing
  · next ha => exact .staged j hj (Option.not_isSome_iff_eq_none.1 ha)

theorem stageUnknownAct : RequestAct fun t =>
    if t.cfg.armed.isSome then (t, reply .busyArmed []) else (t.useFree 1, reply .range (t.freeBytes 1)) := by
  intro t
  dsimp only
  split
  · exact .nothing
  · exact .free 1

theorem commitAct (n : Word) : RequestAct fun t =>
    (t.setCfg (t.cfg.commit t.clock.number n).1, (t.cfg.commit t.clock.number n).2) := fun _ => .committed n

theorem abortAct (o : Byte) (e : Half) : RequestAct fun t =>
    (t.setCfg (t.cfg.abort o e).1, (t.cfg.abort o e).2) := fun _ => .aborted o e

theorem drainAct (port option : Byte) : RequestAct fun t => t.takeDrain port option := by
  intro t
  dsimp only [State.takeDrain]
  split
  · split
    · exact .nothing
    · next hp => exact .drained _ _ (fun h => hp (.inl h)) (not_not.1 fun h => hp (.inr h))
  · exact .nothing

theorem resumeAct (port : Byte) : RequestAct fun t => t.takeResume port := by
  intro t
  dsimp only [State.takeResume]
  split
  · exact .nothing
  · split
    · exact .nothing
    · exact .resumed _

/-! ### Which request does what -/

/-- Every request row but OPEN is served with an act of its unit. -/
theorem exec_requestRow {c : Instr} {q : RequestRow} (h : requestRow c = some q) :
    ∃ act, RequestAct act ∧ ∀ s, exec c s =
      taken s fun s => s.serveRequest q.head q.code q.edit (bodyLength q.head q.bodyLength) act := by
  cases c <;> cases h
  case closeSession r => exact ⟨_, closeAct r, fun _ => rfl⟩
  case renew => exact ⟨_, .answers _, fun _ => rfl⟩
  case readIdentity => exact ⟨_, .answers _, fun _ => rfl⟩
  case readStream => exact ⟨_, .answers _, fun _ => rfl⟩
  case readWindow => exact ⟨_, .answers _, fun _ => rfl⟩
  case readParams => exact ⟨_, .answers _, fun _ => rfl⟩
  case readStreamCounters => exact ⟨_, .answers _, fun _ => rfl⟩
  case readPort r port => exact ⟨_, readPortAct port, fun _ => rfl⟩
  case readSync => exact ⟨_, freeAct (fun t => t.sync.lastError = none) 4 _, fun _ => rfl⟩
  case readSessions => exact ⟨_, .answers _, fun _ => rfl⟩
  case readEvents => exact ⟨_, freeAct (fun t => t.events.timer = none) 1 _, fun _ => rfl⟩
  case readCommit => exact ⟨_, .answers _, fun _ => rfl⟩
  case ack r n => exact ⟨_, ackAct n, fun _ => rfl⟩
  case stageStreamPut r b => exact ⟨_, stageAct (.streamPut b), fun _ => rfl⟩
  case stageStreamDelete r n => exact ⟨_, stageAct (.streamDelete n), fun _ => rfl⟩
  case stageWindowPut r b => exact ⟨_, stageAct (.windowPut b), fun _ => rfl⟩
  case stageWindowDelete r p n => exact ⟨_, stageAct (.windowDelete p n), fun _ => rfl⟩
  case stageWindowClearPort r p => exact ⟨_, stageAct (.windowClear p), fun _ => rfl⟩
  case stageParams r b => exact ⟨_, stageAct (.params b), fun _ => rfl⟩
  case commit r n => exact ⟨_, commitAct n, fun _ => rfl⟩
  case abort r o e => exact ⟨_, abortAct o e, fun _ => rfl⟩
  case drain r p o => exact ⟨_, drainAct p o, fun _ => rfl⟩
  case resume r p => exact ⟨_, resumeAct p, fun _ => rfl⟩
  case clearCounters => exact ⟨_, fun _ => .cleared, fun _ => rfl⟩
  case restart => exact ⟨_, fun _ => .restartMarked, fun _ => rfl⟩

/-- A request as a delivered frame carries it: some request other than OPEN, served with an act of its unit. -/
def State.Serves (s t : State) : Prop :=
  ∃ h code edit ok act, RequestAct act ∧ t = s.serveRequest h code edit ok act

theorem serves {s t : State} {h : RequestHead} {code : Byte} {edit ok : Bool} {act : State → State × Reply}
    (hact : RequestAct act) (ht : t = s.serveRequest h code edit ok act) : s.Serves t := ⟨h, code, edit, ok, act, hact, ht⟩

theorem readRequest_serves (s : State) (h : RequestHead) (n : Nat) (f : State → Reply) : s.Serves (s.readRequest h n f) :=
  serves (.answers f) rfl

theorem readBySelector_serves (s : State) (h : RequestHead) (b : List Byte) : s.Serves (s.readBySelector h b) := by
  unfold State.readBySelector
  split
  · exact readRequest_serves ..
  · exact readRequest_serves ..
  · exact readRequest_serves ..
  · exact readRequest_serves ..
  · exact readRequest_serves ..
  · exact serves (readPortAct _) rfl
  · exact serves (freeAct (fun t => t.sync.lastError = none) 4 _) rfl
  · exact readRequest_serves ..
  · exact serves (freeAct (fun t => t.events.timer = none) 1 _) rfl
  · exact readRequest_serves ..
  · exact serves (.answers _) rfl

theorem stageStreamBy_serves (s : State) (h : RequestHead) (b : List Byte) : s.Serves (s.stageStreamBy h b) := by
  unfold State.stageStreamBy
  split
  · exact serves (stageAct (.streamPut _)) rfl
  · exact serves (stageAct (.streamDelete _)) rfl
  · exact serves stageUnknownAct rfl

theorem stageWindowBy_serves (s : State) (h : RequestHead) (b : List Byte) : s.Serves (s.stageWindowBy h b) := by
  unfold State.stageWindowBy
  split
  · exact serves (stageAct (.windowPut _)) rfl
  · exact serves (stageAct (.windowDelete _ _)) rfl
  · exact serves (stageAct (.windowClear _)) rfl
  · exact serves stageUnknownAct rfl

/-- A delivered request is an OPEN, or is served with an act of its unit (11.2). -/
theorem deliverRequest_cases (s : State) (source : Byte) (tag length : Half) (payload : List Byte) :
    (∃ h mode lease, s.deliverRequest source tag length payload = s.openRequest h mode lease) ∨
      s.Serves (s.deliverRequest source tag length payload) := by
  unfold State.deliverRequest
  dsimp only
  split
  · exact .inr (serves (.answers _) rfl)
  · split
    · exact .inl ⟨_, _, _, rfl⟩
    · exact .inr (serves (closeAct _) rfl)
    · exact .inr (serves (.answers _) rfl)
    · exact .inr (readBySelector_serves ..)
    · exact .inr (serves (ackAct _) rfl)
    · exact .inr (stageStreamBy_serves ..)
    · exact .inr (stageWindowBy_serves ..)
    · exact .inr (serves (stageAct (.params _)) rfl)
    · exact .inr (serves (commitAct _) rfl)
    · exact .inr (serves (abortAct _ _) rfl)
    · exact .inr (serves (drainAct _ _) rfl)
    · exact .inr (serves (resumeAct _) rfl)
    · exact .inr (serves (fun _ => .cleared) rfl)
    · exact .inr (serves (fun _ => .restartMarked) rfl)
    · exact .inr (serves (.answers _) rfl)

end Sys2Proof.Machine
end

section
/-! What a step can do to ports, queues, frame store, own frames, notices and records, said once: a condition on these that the operations below
keep is kept by every command. -/

namespace Sys2Proof.Machine

open Sys2Proof

/-! ### Class queues with one changed -/

theorem Quad.set_sublist {q : Quad (List Descriptor)} {i : Fin 4} {l : List Descriptor} (h : List.Sublist l (q.get i)) (c : Fin 4) :
    List.Sublist ((q.set i l).get c) (q.get c) := by
  rw [Quad.get_set]
  split
  · next hc => exact hc ▸ h
  · exact .refl _

theorem Quad.perm_set {q : Quad (List Descriptor)} {i : Fin 4} {gone l : List Descriptor} (h : List.Perm (q.get i) (gone ++ l)) :
    List.Perm q.toList.flatten (gone ++ (q.set i l).toList.flatten) := by
  rw [List.perm_iff_count] at *
  intro d
  have := h d
  fin_cases i <;> simp_all [Quad.toList, Quad.set, Quad.get] <;> omega
theorem Quad.perm_filter (q : Quad (List Descriptor)) (f : Descriptor → Bool) :
    List.Perm q.toList.flatten
      ((q.map fun x => x.filter fun d => !f d).toList.flatten ++ (q.map fun x => x.filter fun d => f d).toList.flatten) := by
  rw [List.perm_iff_count]
  intro d
  have key (l : List Descriptor) : l.count d = (l.filter fun d => !f d).count d + (l.filter fun d => f d).count d := by
    rw [Nat.add_comm]
    exact ((List.filter_append_perm f l).count_eq d).symm.trans (List.count_append ..)
  simp only [Quad.toList, Quad.map, List.flatten_cons, List.flatten_nil, List.append_nil, List.count_append]
  have := key q.q0
  have := key q.q1
  have := key q.q2
  have := key q.q3
  omega

/-! ### A link loss, part by part (R122) -/

theorem loseReception_ports (s : State) (p : Port) : (s.loseReception p).ports = s.ports.set p
    { s.ports.get p with
      rx := .rest
      count := { (s.ports.get p).count with
        rxCheck := (s.ports.get p).count.rxCheck +
          if (s.ports.get p).rx.state = .idle ∨ (s.ports.get p).rx.state = .dropped then 0 else 1 } } := by
  unfold State.loseReception
  dsimp only
  rw [(abandon_rest ..).1]
  split
  · simp
  · simp [PerPort.set_set]

theorem loseTransmission_ports (s : State) (p : Port) : (s.loseTransmission p).ports = s.ports.set p
    { s.ports.get p with
      tx := .idle
      count := { (s.ports.get p).count with
        txAborted := (s.ports.get p).count.txAborted + if (s.ports.get p).tx = .idle then 0 else 1 } } := by
  unfold State.loseTransmission
  split
  · next h =>
    have ht := (isIdle_iff _).1 h
    have hu : s.ports.set p { s.ports.get p with tx := .idle } = s.ports := by rw [← ht, PerPort.set_get]
    simpa [ht] using hu.symm
  · next h =>
    have ht : ¬(s.ports.get p).tx = .idle := fun ht => h ((isIdle_iff _).2 ht)
    rw [State.onCount_ports, (cutOff_rest s p).1]
    simp [ht, PerPort.set_set]

/-- What the queues of a port lose at a link loss, the own queue of T among them (R76, R80). -/
def State.flushedByLoss (s : State) (p : Port) : Nat := (s.ports.get p).queued + if p = .t then s.own.length else 0

theorem loseQueues_ports (s : State) (p : Port) : (s.loseQueues p).ports = s.ports.set p
    { s.ports.get p with
      queues := Quad.fill []
      count := { (s.ports.get p).count with
        txFlushed := (s.ports.get p).count.txFlushed + wordOf (s.flushedByLoss p) } } := by
  unfold State.loseQueues
  dsimp only
  rw [State.onCount_ports, apply_ite State.ports, State.setOwn_ports, ite_self, flushQueues_ports]
  simp [PerPort.set_set, State.flushedByLoss]

/-- What a link loss has made of its port before the link goes DOWN: no reception, no transmission, nothing queued. -/
theorem loseQueues_port (s : State) (p : Port) :
    ((((s.loseReception p).loseTransmission p).loseQueues p).ports.get p).rx.state = .idle ∧
    ((((s.loseReception p).loseTransmission p).loseQueues p).ports.get p).tx = .idle ∧
    ∀ c, ((((s.loseReception p).loseTransmission p).loseQueues p).ports.get p).queues.get c = [] := by
  rw [loseQueues_ports, loseTransmission_ports, loseReception_ports]
  simp [Reception.rest]

/-! ### The conditions -/

/-- Two states agree on what the conditions on ports, queues, store, own frames, notices and records read. -/
structure WorkSame (s t : State) : Prop where
  resetHeld : t.resetHeld = s.resetHeld
  active : t.cfg.active = s.cfg.active
  generation : t.cfg.generation = s.cfg.generation
  classifier : t.classifier = s.classifier
  ports : t.ports = s.ports
  store : t.store = s.store
  own : t.own = s.own
  events : t.events = s.events

theorem WorkSame.trans {s t u : State} (h : WorkSame s t) (k : WorkSame t u) : WorkSame s u :=
  ⟨k.1.trans h.1, k.2.trans h.2, k.3.trans h.3, k.4.trans h.4, k.5.trans h.5, k.6.trans h.6, k.7.trans h.7, k.8.trans h.8⟩

/-- A change of a run-time record that keeps its stream and does not raise its budget remaining. -/
def RecordChange (f : StreamRecord → StreamRecord) : Prop :=
  ∀ r, (f r).stream = r.stream ∧ (f r).budgetRemaining ≤ r.budgetRemaining

/-- The event unit without its report and with this sink (R154). -/
def EventUnit.withSink (e : EventUnit) (x : Option Byte) : EventUnit := { e.dropReport with sink := x }

/-- The operations through which a step changes ports, queues, store, own frames, notices and records. `P ds n` is a condition in the midst of
an operation that holds the references of the descriptors `ds`, which are in no queue and no transmitter, and `n` blocks, which no receiver holds. -/
structure WorkClosed (P : List Descriptor → Nat → State → Prop) : Prop where
  same : ∀ {ds n s t}, WorkSame s t → P ds n s → P ds n t
  advance : ∀ {ds n s} k, P ds n s → P ds n (s.advance k)
  count : ∀ {ds n s} p f, P ds n s → P ds n (s.onCount p f)
  records : ∀ {ds n s} f, RecordChange f → P ds n s → P ds n (s.setRecords (s.classifier.records.map f))
  marks : ∀ {ds n s} m, P ds n s → P ds n (s.setClassifier { s.classifier with unknownMarks := m })
  raiseAt : ∀ {ds n s} k p x c d, k ≠ NoticeKind.overflow → P ds n s → P ds n (s.raiseAt k p x c d)
  poolMark : ∀ {ds n s} m, P ds n s → P ds n (s.setEvents { s.events with poolMark := m })
  withSink : ∀ {ds n s} x, P ds n s → P ds n (s.setEvents (s.events.withSink x))
  reportDue : ∀ {ds n s r}, s.events.report = some r → r.sends < 4 → P ds n s →
    P ds n (s.setEvents { s.events with timer := none, report := some { r with due := true } })
  acknowledge : ∀ {ds n s} k, P ds n s → P ds n (s.setEvents (s.events.acknowledge k))
  queueOverflow : ∀ {ds n s}, P ds n s → P ds n s.queueOverflow
  retransmit : ∀ {ds n s}, P ds n s → P ds n s.retransmit
  buildReport : ∀ {ds n s}, P ds n s → P ds n s.buildReport
  appendOwn : ∀ {ds n s} f, s.slotFree = true → P ds n s → P ds n (s.appendOwn f)
  clearOwn : ∀ {ds n s}, P ds n s → P ds n (s.setOwn [])
  dequeue : ∀ {ds n s} p q gone, (∀ c, List.Sublist (q.get c) ((s.ports.get p).queues.get c)) →
    List.Perm (s.ports.get p).queues.toList.flatten (gone ++ q.toList.flatten) → P ds n s →
    P (gone ++ ds) n (s.onPort p fun u => { u with queues := q })
  release : ∀ {ds n s} d, P (d :: ds) n s → P ds n (s.release d)
  startData : ∀ {ds n s} p c d rest, (s.ports.get p).tx = .idle → (s.ports.get p).link = true →
    (s.ports.get p).queues.get c = d :: rest → P ds n s → P ds n (s.startData p c d rest)
  startOwn : ∀ {ds n s} f rest, s.ports.t.tx = .idle → s.ports.t.link = true → s.own = f :: rest → P ds n s →
    P ds n (s.startOwn f rest)
  offerSync : ∀ {ds n s} p, P ds n s → P ds n (s.offerSync p)
  endTx : ∀ {ds n s} p, P ds n s → P ((s.ports.get p).tx.inFlight ++ ds) n (s.onPort p fun u => { u with tx := .idle })
  accept : ∀ {s} e h payload held, P [] held s → P [] 0 (s.acceptFrame e h payload held)
  receive : ∀ {ds n s} p r, (s.ports.get p).link = true ∨ (s.ports.get p).rx.state ≠ .idle → (s.ports.get p).rx.state ≠ .store →
    r.held ≤ (s.ports.get p).rx.held → P ds n s → P ds n (s.onRx p fun _ => r)
  claim : ∀ {ds n s} p need, (s.ports.get p).rx.state = .header → need ≤ s.store.free → P ds n s →
    P ds n ((s.setStore { s.store with free := s.store.free - need }).onRx p fun r => { r with state := .store, held := need })
  endRx : ∀ {ds n s} p, P ds n s → P ds (n + (s.ports.get p).rx.held) (s.onRx p fun _ => .rest)
  endUnstored : ∀ {ds n s} p, (s.ports.get p).rx.state ≠ .store → P ds n s → P ds n (s.onRx p fun _ => .rest)
  returnBlocks : ∀ {ds n s} k, P ds (n + k) s → P ds n (s.returnBlocks k)
  setAdmin : ∀ {ds n s} p a r, (a = .draining ↔ Option.isSome r = true) →
    (p = .t → (s.ports.get p).admin = .opened → a = .opened) → P ds n s →
    P ds n (s.onPort p fun u => { u with admin := a, drain := r })
  linkUp : ∀ {ds n s} p, P ds n s → P ds n (s.onPort p fun u => { u with link := true })
  linkDown : ∀ {ds n s} p, (s.ports.get p).rx.state = .idle → (s.ports.get p).tx = .idle →
    (∀ c, (s.ports.get p).queues.get c = []) → P ds n s → P ds n (s.onPort p fun u => { u with link := false })
  warmRestart : ∀ {s}, P [] 0 s → P [] 0 s.warmRestart
  reset : ∀ {s}, P [] 0 s → P [] 0 { s with resetHeld := true, lock := false }

/-- An operation on each of the descriptors held hands back their references. -/
theorem foldl_held {P : List Descriptor → State → Prop} {f : State → Descriptor → State}
    (hf : ∀ {ds s} d, P (d :: ds) s → P ds (f s d)) (gone : List Descriptor) {ds : List Descriptor} {s : State}
    (h : P (gone ++ ds) s) : P ds (gone.foldl f s) := by
  induction gone generalizing s with
  | nil => exact h
  | cons d gone ih => exact ih (hf d h)

/-- An operation that keeps a condition keeps it over a list. -/
theorem foldl_kept {α : Type} {P : State → Prop} {f : State → α → State} (hf : ∀ {s} a, P s → P (f s a)) (l : List α)
    {s : State} (h : P s) : P (l.foldl f s) := by
  induction l generalizing s with
  | nil => exact h
  | cons a l ih => exact ih (hf a h)

section
variable {P : List Descriptor → Nat → State → Prop} (hP : WorkClosed P) {ds : List Descriptor} {n : Nat} {s : State}
include hP

namespace WorkClosed

/-! ### Updates, records and notices -/

theorem prompt (p : Port) (h : P ds n s) : P ds n (s.prompt p) := hP.same (s := s) ⟨rfl, rfl, rfl, rfl, rfl, rfl, rfl, rfl⟩ h

theorem setAux (a : Aux) (h : P ds n s) : P ds n (s.setAux a) := hP.same (s := s) ⟨rfl, rfl, rfl, rfl, rfl, rfl, rfl, rfl⟩ h

theorem setControl (c : Option ControlFrame) (h : P ds n s) : P ds n (s.setControl c) :=
  hP.same (s := s) ⟨rfl, rfl, rfl, rfl, rfl, rfl, rfl, rfl⟩ h

theorem onRecord (m : StreamNo) (f : StreamRecord → StreamRecord) (hf : RecordChange f) (h : P ds n s) :
    P ds n (s.onRecord m f) := by
  refine hP.records (fun r => if r.stream = m then f r else r) (fun r => ?_) h
  dsimp only
  split
  · exact hf r
  · exact ⟨rfl, Nat.le_refl _⟩

theorem reportExhausted (p : Port) (k : Nat) (h : P ds n s) : P ds n (s.reportExhausted p k) := by
  unfold State.reportExhausted
  split
  · exact h
  · exact hP.poolMark _ (hP.raiseAt _ _ _ _ _ (by decide) h)

theorem reevaluate (h : P ds n s) : P ds n s.reevaluate := by
  unfold State.reevaluate
  split
  · exact h
  · exact hP.same (s := s) ⟨rfl, rfl, rfl, rfl, rfl, rfl, rfl, rfl⟩ h

theorem setSync (r : SyncRecord) (h : P ds n s) : P ds n (s.setSync r) :=
  hP.same (s := s) ⟨rfl, rfl, rfl, rfl, rfl, rfl, rfl, rfl⟩ h

theorem setTrunk (r : TrunkCounters) (h : P ds n s) : P ds n (s.setTrunk r) :=
  hP.same (s := s) ⟨rfl, rfl, rfl, rfl, rfl, rfl, rfl, rfl⟩ h

theorem setSyncState (x : SyncState) (h : P ds n s) : P ds n (s.setSyncState x) := by
  unfold State.setSyncState
  split
  · exact h
  · exact hP.reevaluate (hP.raiseAt _ _ _ _ _ (by decide) (hP.setSync _ h))

/-! ### Late descriptors, choices and drains -/

theorem countLate (c : Configuration) (p : Port) (d : Descriptor) (h : P (d :: ds) n s) : P ds n (s.countLate c p d) := by
  unfold State.countLate
  have hcount := hP.count p (fun k => { k with late := k.late + 1 }) (hP.release d h)
  dsimp only
  split
  · exact hP.onRecord d.stream (fun r => { r with late := r.late + 1 }) (fun _ => ⟨rfl, Nat.le_refl _⟩) hcount
  · exact hcount

theorem reportLate (c : Configuration) (p : Port) (m : StreamNo) (b : Bool) (k : Word) (j : Nat) (h : P ds n s) :
    P ds n (s.reportLate c p m b k j) := by
  unfold State.reportLate
  split
  · exact h
  · split
    · exact hP.onRecord m (fun r => { r with lateMark := some k }) (fun _ => ⟨rfl, Nat.le_refl _⟩)
        (hP.raiseAt _ _ _ _ _ (by decide) h)
    · exact h

theorem dropStale (p : Port) (c : Fin 4) (h : P ds n s) : P ds n (s.dropStale p c) := by
  unfold State.dropStale
  refine foldl_held (P := fun ds t => P ds n t) (fun d h => hP.reportLate _ _ _ _ _ _ (hP.countLate _ _ _ h)) _ ?_
  refine hP.dequeue p _ _ (Quad.set_sublist (List.dropWhile_sublist _)) (Quad.perm_set ?_) h
  rw [List.takeWhile_append_dropWhile]

theorem tryClasses (fits : Nat → Bool) (p : Port) (cs : List (Fin 4)) (ht : (s.ports.get p).tx = .idle)
    (hl : (s.ports.get p).link = true) (h : P ds n s) : P ds n (s.tryClasses fits p cs) := by
  induction cs generalizing s with
  | nil => exact h
  | cons c cs ih =>
    have hdrop := hP.dropStale p c h
    have htx := (dropStale_tx s p p c).trans ht
    have hlink := ((dropStale_follows s p c).ports p).link.trans hl
    unfold State.tryClasses
    dsimp only
    split
    · exact ih htx hlink hdrop
    · next d rest hq =>
      split
      · exact hP.startData p c d rest htx hlink hq hdrop
      · exact ih htx hlink hdrop

theorem serve (fits : Nat → Bool) (own : Bool) (cs : List (Fin 4)) (p : Port) (ht : (s.ports.get p).tx = .idle)
    (hl : (s.ports.get p).link = true) (h : P ds n s) : P ds n (s.serve fits own cs p) := by
  unfold State.serve
  split
  · exact hP.tryClasses fits p cs ht hl h
  · next f rest ho =>
    split
    · next hp =>
      obtain ⟨rfl, -⟩ := hp
      exact hP.startOwn f rest ht hl ho h
    · exact hP.tryClasses fits p cs ht hl h

theorem choose (p : Port) (h : P ds n s) : P ds n (s.choose p) := by
  unfold State.choose
  split
  · next hc =>
    obtain ⟨hi, hl⟩ := Bool.and_eq_true_iff.1 hc
    have ht := (isIdle_iff _).1 hi
    split
    · split
      · exact h
      · exact hP.serve _ _ _ p ht hl h
    · exact hP.serve _ _ _ p ht hl h
    · exact hP.serve _ _ _ p ht hl h
  · exact h

theorem makeChoices (h : P ds n s) : P ds n s.makeChoices := by
  refine foldl_kept (P := P ds n) (fun {s} p h => ?_) _ h
  unfold State.chooseIfDue
  split
  · exact hP.choose p (hP.setAux _ h)
  · exact h

theorem completeDrain (p : Port) (h : P ds n s) : P ds n (s.completeDrain p) := by
  unfold State.completeDrain
  dsimp only
  split
  · next hc =>
    refine hP.raiseAt _ _ _ _ _ (by decide) (hP.setAdmin p .drained none (by simp) (fun _ ho => ?_) h)
    rw [ho] at hc
    cases hc.1
  · exact h

theorem eventWork (h : P ds n s) : P ds n s.eventWork := by
  unfold State.eventWork
  have hq := hP.queueOverflow h
  split
  · exact hP.setAux _ hq
  · exact hP.buildReport (hP.retransmit hq)

theorem settle (h : P ds n s) : P ds n (settle s) :=
  hP.makeChoices (hP.eventWork (foldl_kept (P := P ds n) (fun p h => hP.completeDrain p h) _ (hP.makeChoices h)))

theorem expirePort (m : Word) (p : Port) (h : P ds n s) : P ds n (s.expirePort m p) := by
  unfold State.expirePort
  refine foldl_kept (P := P ds n) (fun m h => hP.reportLate _ _ _ _ _ _ h) _ ?_
  refine foldl_held (P := fun ds t => P ds n t) (fun d h => hP.countLate _ _ _ h) _ ?_
  have hd := hP.dequeue p ((s.ports.get p).queues.map fun q => q.filter fun d => d.live m)
    ((s.ports.get p).queues.map fun q => q.filter fun d => !d.live m).toList.flatten
    (fun c => by rw [Quad.get_map]; exact List.filter_sublist) (Quad.perm_filter _ _) h
  split
  · exact hP.prompt p hd
  · exact hd

/-! ### Flushes and losses -/

theorem flushQueues (p : Port) (h : P ds n s) : P ds n (s.flushQueues p) := by
  unfold State.flushQueues
  refine foldl_held (P := fun ds t => P ds n t) (fun d h => hP.release d h) _ ?_
  refine hP.dequeue p (Quad.fill []) _ (fun c => by rw [Quad.get_fill]; exact List.nil_sublist _) ?_ h
  simp [Quad.toList, Quad.fill]

theorem cutOff (p : Port) (h : P ds n s) : P ds n (s.cutOff p) := by
  have he := hP.endTx p h
  unfold State.cutOff
  dsimp only
  split
  · next d _ _ ht =>
    rw [ht] at he
    exact hP.release d he
  · next hne =>
    have hn : (s.ports.get p).tx.inFlight = [] := by
      unfold Transmitter.inFlight
      split
      · next d _ _ ht => exact absurd ht (hne d _ _)
      · rfl
    rwa [hn] at he

theorem abandon (p : Port) (h : P ds n s) : P ds n (s.abandon p) := by
  unfold State.abandon
  have hr := hP.returnBlocks _ (hP.endRx p h)
  split
  · exact hP.setControl none hr
  · exact hr

theorem loseLink (p : Port) (h : P ds n s) : P ds n (s.loseLink p) := by
  have hrx : P ds n (s.loseReception p) := by
    unfold State.loseReception
    dsimp only
    split
    · exact hP.abandon p h
    · exact hP.abandon p (hP.count p _ h)
  have htx : P ds n ((s.loseReception p).loseTransmission p) := by
    unfold State.loseTransmission
    split
    · exact hrx
    · exact hP.count p _ (hP.cutOff p hrx)
  have hqueues : P ds n (((s.loseReception p).loseTransmission p).loseQueues p) := by
    unfold State.loseQueues
    dsimp only
    refine hP.count p _ ?_
    split
    · exact hP.clearOwn (hP.flushQueues p htx)
    · exact hP.flushQueues p htx
  obtain ⟨hidle, hquiet, hempty⟩ := loseQueues_port s p
  unfold State.loseLink State.finishDrainByLink
  have hdown := hP.raiseAt .linkChange (some p) none (((s.loseReception p).loseTransmission p).loseQueues p).clock.number
    ((linkByte false).setWidth 32) (by decide) (hP.linkDown p hidle hquiet hempty hqueues)
  dsimp only
  split
  · next hd =>
    refine hP.raiseAt _ _ _ _ _ (by decide) (hP.setAdmin p .drained none (by simp) (fun _ ho => ?_) hdown)
    exact absurd (hd.symm.trans ho) (by decide)
  · exact hdown

end WorkClosed
end
end Sys2Proof.Machine
end

section
/-! What a step can do to ports, queues, store and notices, continued: the timing unit, requests, receptions, and every command. -/

namespace Sys2Proof.Machine

open Sys2Proof

/-- COMMIT leaves the active copy and the generation (R51). -/
theorem commit_active (c : ConfigUnit) (now x : Word) :
    (c.commit now x).1.active = c.active ∧ (c.commit now x).1.generation = c.generation := by
  unfold ConfigUnit.commit
  split
  · exact ⟨rfl, rfl⟩
  · split
    · exact ⟨rfl, rfl⟩
    · split <;> exact ⟨rfl, rfl⟩

theorem discardIf_active (c : ConfigUnit) (b : Bool) :
    (c.discardIf b).active = c.active ∧ (c.discardIf b).generation = c.generation := by
  unfold ConfigUnit.discardIf
  split <;> exact ⟨rfl, rfl⟩

/-- ABORT leaves the active copy and the generation (R58). -/
theorem abort_active (c : ConfigUnit) (o : Byte) (e : Half) :
    (c.abort o e).1.active = c.active ∧ (c.abort o e).1.generation = c.generation := by
  unfold ConfigUnit.abort
  split
  · exact ⟨rfl, rfl⟩
  · split
    · exact ⟨rfl, rfl⟩
    · split <;> exact discardIf_active _ _

theorem reportExhausted_ports (s : State) (p : Port) (k : Nat) : (s.reportExhausted p k).ports = s.ports := by
  unfold State.reportExhausted
  split <;> rfl

section
variable {P : List Descriptor → Nat → State → Prop} (hP : WorkClosed P) {ds : List Descriptor} {n : Nat} {s : State}
include hP

namespace WorkClosed

/-! ### The cycle timer unit -/

theorem clearMarks (h : P ds n s) : P ds n (s.setClassifier s.classifier.clearMarks) :=
  hP.marks (s := s.setRecords _) (PerPort.fill none)
    (hP.records (fun r => { r with policedMark := none, oversizeMark := none, lateMark := none }) (fun _ => ⟨rfl, Nat.le_refl _⟩) h)

theorem stepTo (x : Word) (h : P ds n s) : P ds n (s.stepTo x) := by
  unfold State.stepTo
  refine hP.setSyncState _ (hP.setAux _ ?_)
  have hk : ∀ c k r, P ds n (((s.setClock c).setSync r).setTrunk k) := fun c k r =>
    hP.same (s := s) ⟨rfl, rfl, rfl, rfl, rfl, rfl, rfl, rfl⟩ h
  split
  · exact hk _ _ _
  · exact hP.clearMarks (hk _ _ _)

theorem slew (e : Int) (h : P ds n s) : P ds n (s.slew e) := hP.same (s := s) ⟨rfl, rfl, rfl, rfl, rfl, rfl, rfl, rfl⟩ h

theorem actOnSync (e : Int) (x : Word) (h : P ds n s) : P ds n (s.actOnSync e x) := by
  unfold State.actOnSync
  dsimp only
  split
  · exact hP.stepTo x h
  · split
    · exact hP.stepTo x h
    · split
      · exact hP.setSyncState _ (hP.setSync _ h)
      · exact hP.setSync _ h
  · split
    · exact hP.stepTo x h
    · exact hP.slew e h
  · split
    · exact hP.stepTo x h
    · exact hP.setSyncState _ (hP.setSync _ (hP.slew e h))

theorem takeSync (a : Nat) (b : Half) (x l : Word) (h : P ds n s) : P ds n (s.takeSync a b x l) := by
  unfold State.takeSync
  dsimp only
  split
  · exact hP.setTrunk _ h
  · split
    · unfold State.mismatchSync
      dsimp only
      split
      · exact hP.setTrunk _ h
      · exact hP.setSync _ (hP.raiseAt _ _ _ _ _ (by decide) (hP.setTrunk _ h))
    · split
      · exact hP.setTrunk _ h
      · split
        · exact hP.setTrunk _ h
        · exact hP.actOnSync _ _ (hP.setTrunk _ (hP.setSync _ h))

theorem loseSync (h : P ds n s) : P ds n s.loseSync := hP.setSyncState _ (hP.setSync _ h)

theorem missCycle (h : P ds n s) : P ds n s.missCycle := by
  unfold State.missCycle
  have ht : P ds n (s.setTrunk { s.trunkCount with missed := s.trunkCount.missed + 1 }) := hP.setTrunk _ h
  dsimp only
  split
  · exact h
  · exact hP.loseSync ht
  · split
    · exact hP.loseSync ht
    · exact hP.setSyncState _ (hP.setSync _ ht)
  · split
    · exact hP.loseSync ht
    · exact hP.setSync _ ht

/-! ### Sessions and requests -/

theorem setSlots (q : Quad (Option Session)) (h : P ds n s) : P ds n (s.setSlots q) :=
  hP.same (s := s) ⟨rfl, rfl, rfl, rfl, rfl, rfl, rfl, rfl⟩ h

theorem endSession (i : Fin 4) (h : P ds n s) : P ds n (s.endSession i) := by
  unfold State.endSession
  split
  · exact h
  · next x _ =>
    have ht : P ds n (if x.mode = .edit ∧ s.cfg.armed = none then (s.setSlots (s.mgmt.slots.set i none)).discardStaged
        else s.setSlots (s.mgmt.slots.set i none)) := by
      split
      · exact hP.same (s := s) ⟨rfl, rfl, rfl, rfl, rfl, rfl, rfl, rfl⟩ h
      · exact hP.setSlots _ h
    dsimp only
    split
    · exact hP.withSink none ht
    · exact ht

theorem setSink (x : Byte) (h : P ds n s) : P ds n (s.setSink x) := by
  unfold State.setSink
  dsimp only
  split
  · exact hP.setSlots _ h
  · exact hP.withSink (some x) (hP.setSlots _ h)

/-- A report that is outstanding ends with the sink (R157). -/
theorem unsendWith (x : Option Byte) {r : Report} (hr : s.events.report = some r) (h : P ds n s) :
    P ds n (s.setEvents { s.events.unsend with sink := x }) := by
  have hd : s.events.dropReport = s.events.unsend := by simp [EventUnit.dropReport, hr]
  have hw := hP.withSink x h
  rwa [EventUnit.withSink, hd] at hw

theorem expireTimer {r : Report} (hr : s.events.report = some r) (h : P ds n s) : P ds n (s.expireTimer r) := by
  unfold State.expireTimer
  split
  · next hs => exact hP.reportDue hr hs h
  · split
    · exact hP.raiseAt _ _ _ _ _ (by decide) (hP.unsendWith none hr (hP.setSlots _ h))
    · exact hP.unsendWith s.events.sink hr h

theorem respond (r : RequestHead) (b : List Byte) (m : Bool) (h : P ds n s) : P ds n (s.respond r b m) := by
  unfold State.respond
  split
  · next hf => exact hP.appendOwn _ hf h
  · exact hP.count _ _ h

theorem answer (r : RequestHead) (c : Byte) (x : Reply) (b : Bool) (h : P [] 0 s) : P [] 0 (s.answer r c x b) := by
  unfold State.answer
  have ht : P [] 0 (if b then s.record r (responsePayload c x) else s) := by
    split
    · exact hP.setSlots _ h
    · exact h
  dsimp only
  generalize (if b = true then s.record r (responsePayload c x) else s) = t at ht
  split
  · exact hP.warmRestart (hP.respond _ _ _ ht)
  · exact hP.respond _ _ _ ht

theorem startDrain (p : Port) (o : DrainOption) (hp : p ≠ .t) (h : P ds n s) : P ds n (s.startDrain p o) := by
  unfold State.startDrain
  refine hP.setAdmin p .draining (some _) (by simp) (fun ht => absurd ht hp) ?_
  cases o
  · exact hP.count p _ (hP.flushQueues p h)
  · exact h

/-- Clearing the counters keeps streams and budgets, and is a count at every port (R144). -/
theorem clearCounters (h : P ds n s) : P ds n s.clearCounters := by
  have hr := hP.records StreamRecord.clearCounters (fun _ => ⟨rfl, Nat.le_refl _⟩) h
  have hc := foldl_kept (P := P ds n) (f := fun t p => t.onCount p fun _ => .zero) (fun p h => hP.count p _ h) Port.all hr
  refine hP.same ?_ hc
  exact ⟨rfl, rfl, rfl, rfl, rfl, rfl, rfl, rfl⟩

theorem carried {t : State} (hc : Carried s t) (h : P ds n s) : P ds n t := by
  cases hc
  case nothing => exact h
  case sessionEnd i => exact hP.endSession i h
  case free => exact hP.setAux _ h
  case acknowledged k =>
    unfold EventUnit.ack
    split
    · exact hP.same (s := s) ⟨rfl, rfl, rfl, rfl, rfl, rfl, rfl, rfl⟩ h
    · exact hP.acknowledge k h
  case staged j hj ha =>
    obtain ⟨hactive, hgeneration, -⟩ := stage_rest s.cfg (j s.cfg.staged)
    exact hP.same (s := s) ⟨rfl, hactive, hgeneration, rfl, rfl, rfl, rfl, rfl⟩ h
  case committed k =>
    obtain ⟨hactive, hgeneration⟩ := commit_active s.cfg s.clock.number k
    exact hP.same (s := s) ⟨rfl, hactive, hgeneration, rfl, rfl, rfl, rfl, rfl⟩ h
  case aborted o e =>
    obtain ⟨hactive, hgeneration⟩ := abort_active s.cfg o e
    exact hP.same (s := s) ⟨rfl, hactive, hgeneration, rfl, rfl, rfl, rfl, rfl⟩ h
  case drained p o hp ho => exact hP.completeDrain p (hP.startDrain p o hp h)
  case resumed p => exact hP.setAdmin p .opened none (by simp) (fun _ _ => rfl) h
  case cleared => exact hP.clearCounters h
  case restartMarked => exact hP.same (s := s) ⟨rfl, rfl, rfl, rfl, rfl, rfl, rfl, rfl⟩ h

theorem serveRequest {r : RequestHead} {c : Byte} {edit ok : Bool} {act : State → State × Reply} (hact : RequestAct act)
    (h : P [] 0 s) : P [] 0 (s.serveRequest r c edit ok act) := by
  have ht : P [] 0 (s.renewLease r.source) := hP.setSlots _ h
  unfold State.serveRequest
  dsimp only
  split
  · split
    · exact hP.answer _ _ _ _ ht
    · split
      · exact hP.answer _ _ _ _ ht
      · split
        · exact hP.respond _ _ _ ht
        · split
          · exact hP.answer _ _ _ _ ht
          · split
            · exact hP.answer _ _ _ _ ht
            · split
              · exact hP.answer _ _ _ _ ht
              · exact hP.answer _ _ _ _ (hP.carried (hact _) ht)
  · exact h

theorem acceptOpen (r : RequestHead) (m : SessionMode) (l : Nat) (h : P [] 0 s) : P [] 0 (s.acceptOpen r m l) := by
  unfold State.acceptOpen
  have ht : P [] 0 (match sessionSlot s.mgmt.slots r.source with | some i => s.endSession i | none => s) := by
    split
    · exact hP.endSession _ h
    · exact h
  dsimp only
  split
  · exact ht
  · refine hP.answer _ _ _ _ ?_
    split
    · exact hP.setSink _ (hP.setSlots _ ht)
    · exact hP.setSlots _ ht

theorem openRequest (r : RequestHead) (m : Byte) (l : Half) (h : P [] 0 s) : P [] 0 (s.openRequest r m l) := by
  have ht : P [] 0 (s.renewLease r.source) := hP.setSlots _ h
  unfold State.openRequest
  dsimp only
  split
  · split
    · exact hP.answer _ _ _ _ ht
    · split
      · exact hP.answer _ _ _ _ ht
      · split
        · exact hP.answer _ _ _ _ ht
        · split
          · exact hP.answer _ _ _ _ ht
          · split
            · exact hP.answer _ _ _ _ ht
            · split
              · exact hP.answer _ _ _ _ ht
              · exact hP.acceptOpen _ _ _ ht
  · exact h

theorem deliverRequest (a : Byte) (b c : Half) (d : List Byte) (h : P [] 0 s) : P [] 0 (s.deliverRequest a b c d) := by
  rcases deliverRequest_cases s a b c d with ⟨r, m, l, he⟩ | ⟨r, code, edit, ok, act, hact, he⟩
  · exact he ▸ hP.openRequest r m l h
  · exact he ▸ hP.serveRequest hact h

/-! ### Receptions -/

theorem deliverControl (c : ControlFrame) (h : P [] 0 s) : P [] 0 (s.deliverControl c) := by
  unfold State.deliverControl
  split
  · dsimp only
    split
    · exact hP.takeSync _ _ _ _ (hP.count _ _ h)
    · exact hP.count _ _ h
  · split
    · exact hP.count _ _ h
    · exact hP.deliverRequest _ _ _ _ (hP.count _ _ h)

theorem unknownStream (p : Port) (m : StreamNo) (h : P ds n s) : P ds n (s.unknownStream p m) := by
  unfold State.unknownStream
  dsimp only
  split
  · exact hP.count _ _ h
  · exact hP.marks _ (hP.raiseAt _ _ _ _ _ (by decide) (hP.count _ _ h))

theorem countUnderMark (p : Port) (m : StreamNo) (count mark : StreamRecord → StreamRecord) (kind : NoticeKind) (detail : Word)
    (reported : Prop) [Decidable reported] (hc : RecordChange count) (hm : RecordChange mark) (hk : kind ≠ .overflow)
    (h : P ds n s) : P ds n (s.countUnderMark p m count mark kind detail reported) := by
  unfold State.countUnderMark
  split
  · exact hP.onRecord m mark hm (hP.raiseAt _ _ _ _ _ hk (hP.onRecord m count hc h))
  · exact hP.onRecord m count hc h

theorem classify (p : Port) (x : Header) (payload : List Byte) (held : Nat) (h : P [] held s) :
    P [] 0 (s.classify p x payload held) := by
  have hback {t : State} (ht : P [] held t) : P [] 0 (t.returnBlocks held) := hP.returnBlocks held (by rwa [Nat.zero_add])
  unfold State.classify
  split
  · exact hback (hP.count _ _ h)
  · split
    · exact hback (hP.unknownStream _ _ h)
    · next e _ =>
      dsimp only
      split
      · exact hback (hP.count _ _ h)
      · split
        · rw [oversizeFrame_eq]
          exact hback (hP.countUnderMark _ _ _ _ _ _ _ (fun _ => ⟨rfl, Nat.le_refl _⟩) (fun _ => ⟨rfl, Nat.le_refl _⟩)
            (by decide) h)
        · split
          · rw [policeFrame_eq]
            exact hback (hP.countUnderMark _ _ _ _ _ _ _ (fun _ => ⟨rfl, Nat.le_refl _⟩) (fun _ => ⟨rfl, Nat.le_refl _⟩)
              (by decide) h)
          · refine hP.accept _ _ _ _ ?_
            split
            · exact h
            · exact hP.onRecord e.stream (fun r => { r with budgetRemaining := r.budgetRemaining - 1 })
                (fun _ => ⟨rfl, Nat.sub_le _ _⟩) h

/-- The receiver is idle again, its blocks in hand (R114). -/
theorem finishReception (p : Port) (h : P ds n s) : P ds (n + (s.ports.get p).rx.held) (s.finishReception p) := by
  unfold State.finishReception
  have hr := hP.endRx p h
  dsimp only
  split
  · exact hP.setControl none hr
  · exact hr

theorem finishUnstored (p : Port) (hx : (s.ports.get p).rx.state ≠ .store) (h : P ds n s) : P ds n (s.finishReception p) := by
  unfold State.finishReception
  have hr := hP.endUnstored p hx h
  dsimp only
  split
  · exact hP.setControl none hr
  · exact hr

theorem endFrame (p : Port) (x : Header) (rest : List Byte) {r : Reception} (hr : (s.ports.get p).rx.held = r.held)
    (hx : (s.ports.get p).rx.state = r.state) (h : P [] 0 s) : P [] 0 (s.endFrame p r x rest) := by
  have hheld := hP.finishReception p h
  rw [hr] at hheld
  have hnone (hne : r.state ≠ .store) : P [] 0 (s.finishReception p) := hP.finishUnstored p (hx ▸ hne) h
  unfold State.endFrame
  dsimp only
  split
  · next hd => exact hnone (by simp [hd])
  · split
    · next hd => exact hP.count _ _ (hnone (by simp [hd.1]))
    · split
      · exact hP.returnBlocks _ (hP.count _ _ hheld)
      · unfold State.deliver
        split
        · rw [Nat.zero_add] at hheld
          exact hP.classify _ _ _ _ (hP.count _ _ hheld)
        · next hc =>
          split
          · exact hP.deliverControl _ (hnone (by simp [hc]))
          · exact hnone (by simp [hc])
        · next hu =>
          split
          · exact hP.count _ _ (hnone (by simp [hu]))
          · exact hP.count _ _ (hnone (by simp [hu]))
          · exact hnone (by simp [hu])
        · next hs _ _ => exact hnone hs

theorem receiving {p : Port} (hx : (s.ports.get p).rx.state = .header) (f : Reception → Reception)
    (hf : ∀ r, (f r).held ≤ r.held) (h : P ds n s) : P ds n (s.onRx p f) :=
  hP.receive p (f (s.ports.get p).rx) (.inr (by simp [hx])) (by simp [hx]) (hf _) h

theorem decideHeader (p : Port) (x : Header) (hx : (s.ports.get p).rx.state = .header) (h : P ds n s) :
    P ds n (s.decideHeader p x) := by
  have hcount (f : PortCounters → PortCounters) : ((s.onCount p f).ports.get p).rx.state = .header := by simpa using hx
  have hunkept (d : Disposition) : P ds n (s.enterUnkept p d) := hP.receiving hx _ (fun _ => Nat.le_refl _) h
  unfold State.decideHeader
  split
  · exact hP.receiving (hcount _) _ (fun _ => Nat.le_refl _) (hP.count _ _ h)
  · split
    · exact hunkept _
    · split
      · exact hunkept _
      · split
        · next ht =>
          obtain ⟨rfl, -⟩ := ht
          exact hP.setControl _ (hP.receiving hx _ (fun _ => Nat.le_refl _) h)
        · split
          · exact hunkept _
          · split
            · exact hunkept _
            · unfold State.claim
              dsimp only
              split
              · next hn => exact hP.claim p _ hx hn h
              · refine hP.receiving ?_ _ (fun _ => Nat.le_refl _) (hP.reportExhausted _ _ (hP.count _ _ h))
                rw [reportExhausted_ports]
                exact hcount _

end WorkClosed
end
end Sys2Proof.Machine
end

section
/-! Every command and every step, for conditions on ports, queues, store, own frames, notices and records; and the conditions that read one port
at a time, or the event unit alone. -/

namespace Sys2Proof.Machine

open Sys2Proof

/-! ### The passage of byte times at a port -/

theorem advance_port (s : State) (n : Nat) (p : Port) : (s.advance n).ports.get p = (s.ports.get p).elapse n :=
  PerPort.get_map ..

theorem Reception.elapse_state (r : Reception) (n : Nat) : (r.elapse n).state = r.state := by
  unfold Reception.elapse
  split <;> rfl

theorem Reception.elapse_held (r : Reception) (n : Nat) : (r.elapse n).held = r.held := by
  unfold Reception.elapse
  split <;> rfl

theorem advance_rx_state (s : State) (n : Nat) (p : Port) : ((s.advance n).ports.get p).rx.state = (s.ports.get p).rx.state := by
  rw [advance_port]
  exact Reception.elapse_state ..

theorem advance_rx_held (s : State) (n : Nat) (p : Port) : ((s.advance n).ports.get p).rx.held = (s.ports.get p).rx.held := by
  rw [advance_port]
  exact Reception.elapse_held ..

theorem Transmitter.elapse_inFlight (x : Transmitter) (n : Nat) : (x.elapse n).inFlight = x.inFlight := by
  cases x with
  | idle => rfl
  | busy frame _ _ => cases frame <;> rfl

theorem advance_inFlight (s : State) (n : Nat) (p : Port) :
    ((s.advance n).ports.get p).tx.inFlight = (s.ports.get p).tx.inFlight := by
  rw [advance_port]
  exact Transmitter.elapse_inFlight ..

/-! ### Every command -/

section
variable {P : List Descriptor → Nat → State → Prop} (hP : WorkClosed P) {s : State}
include hP

namespace WorkClosed

theorem endData (p : Port) (d : Descriptor) (ht : (s.ports.get p).tx.inFlight = [d]) (h : P [] 0 s) :
    P [] 0 (s.endData p d) := by
  have he := hP.endTx p h
  rw [ht] at he
  have hc := hP.count p (fun k => { k with txFrames := k.txFrames + 1 }) (hP.release d he)
  unfold State.endData
  refine hP.prompt p ?_
  split
  · exact hP.onRecord d.stream (fun r => { r with forwarded := r.forwarded + 1 }) (fun _ => ⟨rfl, Nat.le_refl _⟩) hc
  · exact hc

/-- The end of a frame that is no data frame hands back nothing. -/
theorem endOther (p : Port) (ht : (s.ports.get p).tx.inFlight = []) (h : P [] 0 s) :
    P [] 0 (s.onPort p fun u => { u with tx := .idle }) := by
  have he := hP.endTx p h
  rwa [ht] at he

theorem taken {f : State → State} {t : State} (ht : Machine.taken s f = .next t) (hf : s.resetHeld = false → P [] 0 (f s))
    (h : P [] 0 s) : P [] 0 t := by
  rcases taken_next ht with ⟨-, rfl⟩ | ⟨hr, rfl⟩
  · exact h
  · exact hP.settle (hf hr)

theorem takeOpening (p : Port) (h : P [] 0 s) : P [] 0 (s.takeOpening p) := by
  obtain ⟨h1, h2, h3, h4, h5, -⟩ := takeOpening_spec s p
  have hk := takeOpening_kept s p
  exact hP.same ⟨hk.resetHeld, by rw [hk.cfg], by rw [hk.cfg], h5, h1, h2, h3, h4⟩ h

/-- The end of a frame keeps the condition, whatever the receiver's state. -/
theorem frameEnd (p : Port) (rest : List Byte) {t : State} (ht : execFrameEnd p rest s = .next t) (h : P [] 0 s) : P [] 0 t := by
  unfold execFrameEnd at ht
  refine hP.taken ht (fun _ => ?_) h
  dsimp only
  split
  · rcases endCut_cases s p rest with he | ⟨x, -, -, -, -, -, -, he⟩
    · rw [he]; exact h
    · rw [he]; exact hP.deliverControl _ (hP.setAux _ h)
  · next hx =>
    split
    · refine hP.count p _ (hP.finishUnstored p ?_ (hP.advance _ h))
      simp [advance_rx_state, hx]
    · exact h
  · exact hP.endFrame p _ rest (advance_rx_held ..) (advance_rx_state ..) (hP.advance _ h)
  · exact h

theorem execLifetimeExpiry (p : Port) {t : State} (he : Machine.execLifetimeExpiry p s = .next t) (h : P [] 0 s) : P [] 0 t := by
  unfold Machine.execLifetimeExpiry at he
  refine hP.taken he (fun _ => ?_) h
  split
  · exact hP.setAux _ (hP.expirePort _ _ h)
  · split
    · exact hP.expirePort _ _ h
    · exact hP.setAux _ (hP.expirePort _ _ (hP.advance _ h))

theorem execWindowOpen (p : Port) (v : Nat) {t : State} (he : Machine.execWindowOpen p v s = .next t) (h : P [] 0 s) : P [] 0 t := by
  unfold Machine.execWindowOpen at he
  refine hP.taken he (fun _ => ?_) h
  split
  · exact hP.takeOpening p (hP.advance _ h)
  · exact h

theorem execWindowClose (p : Port) (v : Nat) {t : State} (he : Machine.execWindowClose p v s = .next t) (h : P [] 0 s) : P [] 0 t := by
  unfold Machine.execWindowClose at he
  refine hP.taken he (fun _ => ?_) h
  split
  · exact hP.advance _ h
  · exact h

theorem execMissedSyncEvaluation {t : State} (he : Machine.execMissedSyncEvaluation s = .next t) (h : P [] 0 s) : P [] 0 t := by
  unfold Machine.execMissedSyncEvaluation at he
  refine hP.taken he (fun _ => ?_) h
  dsimp only
  split
  · split
    · exact hP.setAux _ (hP.advance _ h)
    · exact hP.missCycle (hP.setAux _ (hP.advance _ h))
  · exact h

theorem execFrameStart (p : Port) {t : State} (he : Machine.execFrameStart p s = .next t) (h : P [] 0 s) : P [] 0 t := by
  unfold Machine.execFrameStart at he
  refine hP.taken he (fun _ => ?_) h
  split
  · next hc => exact hP.receive p _ (.inl hc.1) (by simp [hc.2]) (Nat.zero_le _) h
  · exact h

theorem execHeaderDecision (p : Port) (x : Header) {t : State} (he : Machine.execHeaderDecision p x s = .next t) (h : P [] 0 s) : P [] 0 t := by
  unfold Machine.execHeaderDecision at he
  refine hP.taken he (fun _ => ?_) h
  split
  · next hx =>
    have hadv : ((s.advance (10 - (s.ports.get p).rx.bytes)).ports.get p).rx.state = .header :=
      (advance_rx_state ..).trans hx
    refine hP.decideHeader p x ?_ (hP.receiving hadv _ (fun _ => Nat.le_refl _) (hP.advance _ h))
    simp [State.onRx, Reception.complete, hadv]
  · exact h

theorem execDataTxEnd (p : Port) {t : State} (he : Machine.execDataTxEnd p s = .next t) (h : P [] 0 s) : P [] 0 t := by
  unfold Machine.execDataTxEnd at he
  refine hP.taken he (fun _ => ?_) h
  split
  · next d _ _ ht =>
    exact hP.endData p d ((advance_inFlight ..).trans (by rw [ht]; rfl)) (hP.advance _ h)
  · exact h

theorem execOwnTxEnd {t : State} (he : Machine.execOwnTxEnd s = .next t) (h : P [] 0 s) : P [] 0 t := by
  unfold Machine.execOwnTxEnd at he
  refine hP.taken he (fun _ => ?_) h
  split
  · next f _ rem ht =>
    have hin : (s.ports.get .t).tx.inFlight = [] := congrArg Transmitter.inFlight ht
    have hend := hP.endOther .t ((advance_inFlight s rem .t).trans hin) (hP.advance rem h)
    dsimp only
    split
    · exact hP.warmRestart hend
    · exact hP.prompt .t (hP.setAux _ hend)
  · exact h

theorem execSyncTxEnd (p : Port) {t : State} (he : Machine.execSyncTxEnd p s = .next t) (h : P [] 0 s) : P [] 0 t := by
  unfold Machine.execSyncTxEnd at he
  refine hP.taken he (fun _ => ?_) h
  split
  · next ht =>
    exact hP.prompt p (hP.count p _ (hP.endOther p ((advance_inFlight ..).trans (by rw [ht]; rfl)) (hP.advance _ h)))
  · exact h

theorem execLinkLoss (p : Port) {t : State} (he : Machine.execLinkLoss p s = .next t) (h : P [] 0 s) : P [] 0 t := by
  unfold Machine.execLinkLoss at he
  refine hP.taken he (fun _ => ?_) h
  split
  · dsimp only
    split
    · exact hP.warmRestart (hP.loseLink p h)
    · exact hP.loseLink p h
  · exact h

theorem execLinkReturn (p : Port) {t : State} (he : Machine.execLinkReturn p s = .next t) (h : P [] 0 s) : P [] 0 t := by
  unfold Machine.execLinkReturn at he
  refine hP.taken he (fun _ => ?_) h
  split
  · exact h
  · exact hP.prompt p (hP.raiseAt _ _ _ _ _ (by decide) (hP.linkUp p h))

theorem execLeaseExpiry (i : Fin 4) {t : State} (he : Machine.execLeaseExpiry i s = .next t) (h : P [] 0 s) : P [] 0 t := by
  unfold Machine.execLeaseExpiry at he
  refine hP.taken he (fun _ => ?_) h
  split
  · exact h
  · split
    · exact hP.raiseAt _ _ _ _ _ (by decide) (hP.endSession i h)
    · exact h

theorem execRetransmitTimerExpiry {t : State} (he : Machine.execRetransmitTimerExpiry s = .next t) (h : P [] 0 s) : P [] 0 t := by
  unfold Machine.execRetransmitTimerExpiry at he
  refine hP.taken he (fun _ => ?_) h
  split
  · next hr =>
    split
    · exact hP.expireTimer hr h
    · exact h
  · exact h

theorem execWarmRestart {t : State} (he : Machine.execWarmRestart s = .next t) (h : P [] 0 s) : P [] 0 t := by
  unfold Machine.execWarmRestart at he
  refine hP.taken he (fun _ => ?_) h
  split
  · exact hP.warmRestart h
  · exact h

/-- A condition that the operations of `WorkClosed` keep is kept by every command but a natural cycle start and a release of RESET_N, where it
must hold of what those leave. -/
theorem exec {c : Instr} {t : State} (he : Machine.exec c s = .next t)
    (hstart : c = .naturalCycleStart ∨ c = .swap → P [] 0 (s.runTo s.clock.cycleEnd) → P [] 0 (s.runTo s.clock.cycleEnd).cycleStart)
    (hrelease : ∀ a b l, c = .resetRelease a b l → P [] 0 (State.powerOn a b l s.pending)) (h : P [] 0 s) : P [] 0 t := by
  cases hq : requestRow c with
  | some q =>
    obtain ⟨act, hact, hexec⟩ := exec_requestRow hq
    rw [hexec] at he
    exact hP.taken he (fun _ => hP.serveRequest hact h) h
  | none =>
    cases c <;> cases hq
    case none.resetAssert.refl =>
      simp only [Machine.exec, execResetAssert, Host.Outcome.next.injEq] at he
      subst he
      exact hP.reset (foldl_kept (P := P [] 0) (fun p h => hP.cutOff p (hP.abandon p h)) _ h)
    case none.resetRelease.refl a b l =>
      simp only [Machine.exec, execResetRelease, Host.Outcome.next.injEq] at he
      exact he ▸ hrelease a b l rfl
    case none.naturalCycleStart.refl =>
      simp only [Machine.exec, execNaturalCycleStart] at he
      exact hP.taken he (fun _ => hstart (.inl rfl) (hP.advance _ h)) h
    case none.lifetimeExpiry.refl p => exact hP.execLifetimeExpiry _ he h
    case none.swap.refl =>
      simp only [Machine.exec, execSwap] at he
      refine hP.taken he (fun _ => ?_) h
      split
      · exact hstart (.inr rfl) (hP.advance _ h)
      · exact h
    case none.windowOpen.refl p v => exact hP.execWindowOpen _ _ he h
    case none.windowClose.refl p v => exact hP.execWindowClose _ _ he h
    case none.missedSyncEvaluation.refl => exact hP.execMissedSyncEvaluation he h
    case none.frameStart.refl p => exact hP.execFrameStart _ he h
    case none.headerDecision.refl p x => exact hP.execHeaderDecision _ _ he h
    case none.frameEnd.refl p rest => exact hP.frameEnd p rest he h
    case none.syncFrame.refl a b x l => exact hP.taken (f := fun s => s.takeSync a b x l) he (fun _ => hP.takeSync a b x l h) h
    case none.dataTxEnd.refl p => exact hP.execDataTxEnd _ he h
    case none.ownTxEnd.refl => exact hP.execOwnTxEnd he h
    case none.syncTxEnd.refl p => exact hP.execSyncTxEnd _ he h
    case none.choice.refl p => exact hP.taken (f := fun s => s.choose p) he (fun _ => hP.choose p h) h
    case none.linkLoss.refl p => exact hP.execLinkLoss _ he h
    case none.linkReturn.refl p => exact hP.execLinkReturn _ he h
    case none.drainCompletion.refl p => exact hP.taken (f := fun s => s.completeDrain p) he (fun _ => hP.completeDrain p h) h
    case none.leaseExpiry.refl i => exact hP.execLeaseExpiry _ he h
    case none.retransmitTimerExpiry.refl => exact hP.execRetransmitTimerExpiry he h
    case none.deferredRetransmission.refl => exact hP.taken (f := State.retransmit) he (fun _ => hP.retransmit h) h
    case none.reportBuild.refl => exact hP.taken (f := State.buildReport) he (fun _ => hP.buildReport h) h
    case none.overflowQueued.refl => exact hP.taken (f := State.queueOverflow) he (fun _ => hP.queueOverflow h) h
    case none.warmRestart.refl => exact hP.execWarmRestart he h
    case none.openSession.refl r m l => exact hP.taken (f := fun s => s.openRequest r m l) he (fun _ => hP.openRequest r m l h) h
    case none.unknownRequestCode.refl r code =>
      simp only [Machine.exec, execUnknownRequestCode] at he
      exact hP.taken he (fun _ => hP.serveRequest (.answers _) h) h

/-- The same of a step, where the condition holds of every release and across a natural cycle start that the step may take. -/
theorem step {t : State} (hrelease : ∀ a b l q, P [] 0 (State.powerOn a b l q))
    (hstart : ∀ q, P [] 0 (({ s with pending := q } : State).runTo s.clock.cycleEnd) →
      P [] 0 (({ s with pending := q } : State).runTo s.clock.cycleEnd).cycleStart)
    (h : P [] 0 s) (he : Machine.step s = .next t) : P [] 0 t := by
  have hq {s : State} (q : List Instr) (h : P [] 0 s) : P [] 0 { s with pending := q } :=
    hP.same (s := s) ⟨rfl, rfl, rfl, rfl, rfl, rfl, rfl, rfl⟩ h
  unfold Machine.step at he
  split at he
  · simp only [Host.Outcome.next.injEq] at he
    subst he
    unfold idleStep
    split
    · exact h
    · split
      · exact hq _ (hP.advance 1 h)
      · exact hq _ h
  · exact hP.exec he (fun _ h => hstart _ h) (fun a b l _ => hrelease a b l _) (hq _ h)

/-! ### Natural cycle starts -/

/-- A natural cycle start keeps a condition that holds once the cycle has turned, a due swap is made and the budgets are refilled. -/
theorem cycleStart (hbegin : P [] 0 s.turnCycle → P [] 0 (s.turned.setRecords (refill s.turned.cfg.active s.turned.classifier.records)))
    (h : P [] 0 s) : P [] 0 s.cycleStart := by
  have hbegun : P [] 0 s.turned.beginCycle := by
    have hr := hbegin (hP.same (s := s) ⟨rfl, rfl, rfl, rfl, rfl, rfl, rfl, rfl⟩ h)
    have hk := hP.records (StreamRecord.keepMarks s.turned.clock.number) (fun _ => ⟨rfl, Nat.le_refl _⟩) hr
    have hm := hP.poolMark none (hP.marks (s.turned.classifier.unknownMarks.map (keepMark s.turned.clock.number)) hk)
    refine hP.same ?_ hm
    exact ⟨rfl, rfl, rfl, rfl, rfl, rfl, rfl, rfl⟩
  have hreeval := hP.reevaluate hbegun
  have hsync : P [] 0 (if s.turned.beginCycle.reevaluate.enforcing then
      Port.branches.foldl State.offerSync s.turned.beginCycle.reevaluate else s.turned.beginCycle.reevaluate) := by
    split
    · exact foldl_kept (P := P [] 0) (fun p h => hP.offerSync p h) _ hreeval
    · exact hreeval
  refine foldl_kept (P := P [] 0) (fun p h => ?_) _ (hP.setAux _ hsync)
  unfold State.openAtZero
  split
  · exact hP.takeOpening p h
  · exact h

/-- The same, where the swap and the refill of the budgets keep the condition one by one. -/
theorem cycleStart_of_swap (hswap : P [] 0 s.turnCycle → P [] 0 s.turnCycle.takeSwap)
    (hrefill : ∀ rs, P [] 0 s.turned → P [] 0 (s.turned.setRecords rs)) (h : P [] 0 s) : P [] 0 s.cycleStart := by
  refine hP.cycleStart (fun hturn => hrefill _ ?_) h
  unfold State.turned
  split
  · exact hswap hturn
  · exact hturn

end WorkClosed
end
end Sys2Proof.Machine
end

section
/-! The standing conditions on the gate-wide state: LOCK, the sync record, the sessions, the staged copy and the two configurations. Each is
`GateClosed`: the operations that change the gate-wide state keep it. -/

namespace Sys2Proof.Machine

open Sys2Proof

/-! ### What an accepted OPEN does (R137) -/

theorem atSessionEnd_active (c : ConfigUnit) (m : SessionMode) :
    (c.atSessionEnd m).active = c.active ∧ (c.atSessionEnd m).generation = c.generation ∧ (c.atSessionEnd m).armed = c.armed := by
  unfold ConfigUnit.atSessionEnd
  split <;> exact ⟨rfl, rfl, rfl⟩

/-- The end of a session leaves the active copy, the generation and the armed commit (R60). -/
theorem endSession_active (s : State) (i : Fin 4) : (s.endSession i).cfg.active = s.cfg.active ∧
    (s.endSession i).cfg.generation = s.cfg.generation ∧ (s.endSession i).cfg.armed = s.cfg.armed := by
  rw [(endSession_spec s i).2.2.1]
  split
  · exact ⟨rfl, rfl, rfl⟩
  · exact atSessionEnd_active ..

/-- The state once a station's earlier session, if it has one, has ended. -/
def State.sessionEnded (s : State) (n : Byte) : State :=
  match sessionSlot s.mgmt.slots n with
  | some i => s.endSession i
  | none => s

/-- The session an accepted OPEN starts (R137). -/
def openedSession (h : RequestHead) (m : SessionMode) (l : Nat) (k : Fin 4) : Session :=
  { station := h.source, mode := m, lease := l, remaining := l, lastSequence := h.tag,
    replay := responsePayload 0x01 (reply .ok (byteOf k.val :: be16 (halfOf l))), sink := false }

/-- The state once the new session of an accepted OPEN has its slot and, with REPORT, is the sink. -/
def State.sessionOpened (s : State) (h : RequestHead) (m : SessionMode) (l : Nat) (k : Fin 4) : State :=
  let t := s.setSlots (s.mgmt.slots.set k (some (openedSession h m l k)))
  if bitOf h.flags 0 then t.setSink h.source else t

theorem acceptOpen_eq (s : State) (h : RequestHead) (m : SessionMode) (l : Nat) : s.acceptOpen h m l =
    match freeSlot (s.sessionEnded h.source).mgmt.slots with
    | none => s.sessionEnded h.source
    | some k => ((s.sessionEnded h.source).sessionOpened h m l k).answer h 0x01 (reply .ok (byteOf k.val :: be16 (halfOf l))) false :=
  rfl

theorem sessionEnded_kept (s : State) (n : Byte) : SessionKept s (s.sessionEnded n) := by
  unfold State.sessionEnded
  split
  · exact (endSession_spec ..).1
  · exact .refl s

/-- The slots once a new session has one: its record there, and with REPORT the only sink flag. -/
theorem sessionOpened_spec (s : State) (h : RequestHead) (m : SessionMode) (l : Nat) (k : Fin 4) :
    SessionKept s (s.sessionOpened h m l k) ∧ (s.sessionOpened h m l k).cfg = s.cfg ∧
    (s.sessionOpened h m l k).mgmt =
      { s.mgmt with
        slots := if bitOf h.flags 0 then
            (s.mgmt.slots.set k (some (openedSession h m l k))).map fun x => x.map fun y => { y with sink := y.station = h.source }
          else s.mgmt.slots.set k (some (openedSession h m l k)) } := by
  unfold State.sessionOpened
  dsimp only
  split
  · obtain ⟨hk, hc, hm, -⟩ := setSink_spec (s.setSlots (s.mgmt.slots.set k (some (openedSession h m l k)))) h.source
    exact ⟨⟨hk.1, hk.2, hk.3, hk.4, hk.5, hk.6, hk.7⟩, hc, hm⟩
  · exact ⟨⟨rfl, rfl, rfl, rfl, rfl, rfl, rfl⟩, rfl, rfl⟩

/-- The gate-wide state after an accepted OPEN is that of the new session: its response changes none of it. -/
theorem acceptOpen_spec (s : State) (h : RequestHead) (m : SessionMode) (l : Nat) : SessionKept s (s.acceptOpen h m l) ∧
    (s.acceptOpen h m l).cfg = (s.sessionEnded h.source).cfg ∧
    (s.acceptOpen h m l).mgmt =
      match freeSlot (s.sessionEnded h.source).mgmt.slots with
      | none => (s.sessionEnded h.source).mgmt
      | some k => ((s.sessionEnded h.source).sessionOpened h m l k).mgmt := by
  have hk := sessionEnded_kept s h.source
  rw [acceptOpen_eq]
  split
  · exact ⟨hk, rfl, rfl⟩
  · next k _ =>
    obtain ⟨ho, hc, -⟩ := sessionOpened_spec (s.sessionEnded h.source) h m l k
    obtain ⟨ha, hac, ham⟩ := answer_unmarked_kept ((s.sessionEnded h.source).sessionOpened h m l k) h 0x01
      (reply .ok (byteOf k.val :: be16 (halfOf l))) false rfl
    exact ⟨(hk.trans ho).trans ha, hac.trans hc, ham⟩

/-! ### What a natural cycle start does, item by item (R54, R84, R85) -/

theorem cycleStart_resetHeld (s : State) : s.cycleStart.resetHeld = s.resetHeld := (cycleStart_timing s).1

theorem cycleStart_straps (s : State) : s.cycleStart.straps = s.straps := (cycleStart_timing s).2.1

theorem cycleStart_mgmt (s : State) : s.cycleStart.mgmt = s.mgmt := (cycleStart_timing s).2.2.1

theorem cycleStart_cfg (s : State) : s.cycleStart.cfg = s.cfg.atStart (s.clock.number + 1) := (cycleStart_timing s).2.2.2.2.2.1

theorem cycleStart_sync (s : State) : s.cycleStart.sync = { s.sync with accepted := false, mismatchMark := none } :=
  (cycleStart_timing s).2.2.2.2.2.2.1

theorem cycleStart_lock (s : State) : s.cycleStart.lock = s.cycleStart.enforcing := (cycleStart_timing s).2.2.2.2.2.2.2.2

/-! ### LOCK (R99) -/

/-- Out of reset the condition says that LOCK shows the enforcing condition. -/
theorem lockInv_iff {s : State} (hr : s.resetHeld = false) : s.LockInv ↔ s.lock = s.enforcing := by
  simp [State.LockInv, hr]

/-- The condition reads LOCK, RESET_N, the sync record and the generation. -/
theorem lockInv_same {s t : State} (hr : t.resetHeld = s.resetHeld) (hl : t.lock = s.lock) (hs : t.sync = s.sync)
    (hg : t.cfg.generation = s.cfg.generation) (h : s.LockInv) : t.LockInv := by
  simpa [State.LockInv, State.enforcing, hr, hl, hs, hg] using h

theorem lockInv_endSession {s : State} (i : Fin 4) (h : s.LockInv) : (s.endSession i).LockInv :=
  have hk := (endSession_spec s i).1
  lockInv_same hk.resetHeld hk.lock hk.sync (endSession_active s i).2.1 h

theorem sessionEnded_kept_of {P : State → Prop} (hend : ∀ {s} i, P s → P (s.endSession i)) {s : State} (n : Byte) (h : P s) :
    P (s.sessionEnded n) := by
  unfold State.sessionEnded
  split
  · exact hend _ h
  · exact h

/-- LOCK follows the enforcing condition through every operation on the gate-wide state. -/
theorem lockInv_closed : GateClosed State.LockInv where
  kept hk := lockInv_same hk.resetHeld hk.lock hk.sync (by rw [hk.cfg])
  advance n := lockInv_same rfl rfl rfl rfl
  cycleStart hr _ := (lockInv_iff ((cycleStart_resetHeld _).trans hr)).2 (cycleStart_lock _)
  takeSync a b n l hr h :=
    (lockInv_iff ((takeSync_timing _ a b n l).resetHeld.trans hr)).2 (takeSync_lock a b n l ((lockInv_iff hr).1 h))
  missCycle hr _ h := (lockInv_iff ((missCycle_timing _).1.resetHeld.trans hr)).2 (missCycle_lock ((lockInv_iff hr).1 h))
  warmRestart {s} hr _ := (lockInv_iff (s := s.warmRestart) hr).2 rfl
  powerOn _ _ _ _ := rfl
  resetAssert _ := by simp [State.LockInv]
  renewLease _ := lockInv_same rfl rfl rfl rfl
  record _ _ := lockInv_same rfl rfl rfl rfl
  endSession := lockInv_endSession
  loseSink _ := lockInv_same rfl rfl rfl rfl
  acceptOpen {s r m l} hr _ h := by
    obtain ⟨hk, hc, -⟩ := acceptOpen_spec s r m l
    have he := sessionEnded_kept_of lockInv_endSession r.source h
    have hke := sessionEnded_kept s r.source
    exact lockInv_same (hk.resetHeld.trans hke.resetHeld.symm) (hk.lock.trans hke.lock.symm) (hk.sync.trans hke.sync.symm)
      (by rw [hc]) he
  stage _ _ _ := lockInv_same rfl rfl rfl (stage_rest ..).2.1
  commit _ _ _ := lockInv_same rfl rfl rfl (commit_active ..).2
  abort _ _ _ := lockInv_same rfl rfl rfl (abort_active ..).2
  restartMark := lockInv_same rfl rfl rfl rfl
  clearCounters := lockInv_same rfl rfl rfl rfl

/-! ### The sync record (R85, R91) -/

theorem SyncRecord.initial_inv : SyncRecord.initial.Inv := ⟨rfl, rfl, rfl⟩

theorem syncInv_same {s t : State} (h : t.sync = s.sync) (hs : s.SyncInv) : t.SyncInv := by
  rwa [State.SyncInv, h]

/-- A step leaves ACQUIRING with one good sync (R90). -/
theorem stepTo_syncInv (s : State) (n : Word) : (s.stepTo n).SyncInv := by
  rw [State.SyncInv, (stepTo_timing s n).2.1]
  exact ⟨Nat.le_refl 1, Nat.le_succ 1, rfl⟩

/-- An accepted sync sets the accepted mark first, so a record that is UNSYNCED may then show it; the rule of the state sets the record right. -/
theorem actOnSync_syncInv {s : State} (e : Int) (n : Word)
    (h : s.sync.state ≠ .unsynced → s.SyncInv) : (s.actOnSync e n).SyncInv := by
  unfold State.actOnSync
  have hstep := stepTo_syncInv s n
  cases hs : s.sync.state <;> dsimp only
  case unsynced => exact hstep
  case acquiring =>
    have hi := h (by simp [hs])
    simp only [State.SyncInv, SyncRecord.Inv, hs] at hi
    obtain ⟨hlow, hhigh, hmissed⟩ := hi
    split
    · exact hstep
    · split
      · next hg =>
        rw [State.SyncInv, (setSyncState_timing _ _).2.1]
        have : 3 ≤ s.sync.good + 1 := hg
        exact ⟨show s.sync.good + 1 = 3 by omega, hmissed⟩
      · next hg =>
        have : ¬3 ≤ s.sync.good + 1 := hg
        simp only [State.SyncInv, SyncRecord.Inv, State.setSync_sync, hs]
        exact ⟨by omega, by omega, hmissed⟩
  case locked =>
    split
    · exact hstep
    · exact h (by simp [hs])
  case holdover =>
    have hi := h (by simp [hs])
    simp only [State.SyncInv, SyncRecord.Inv, hs] at hi
    split
    · exact hstep
    · rw [State.SyncInv, (setSyncState_timing _ _).2.1]
      exact ⟨hi.1, rfl⟩

theorem takeSync_syncInv {s : State} (a : Nat) (b : Half) (n l : Word) (h : s.SyncInv) : (s.takeSync a b n l).SyncInv := by
  unfold State.takeSync
  dsimp only
  split
  · exact h
  · split
    · unfold State.mismatchSync
      dsimp only
      split <;> exact h
    · split
      · exact h
      · split
        · exact h
        · refine actOnSync_syncInv _ _ fun hu => ?_
          have hu : s.sync.state ≠ .unsynced := hu
          simp only [State.SyncInv, SyncRecord.Inv, State.setTrunk_sync, State.setSync_sync] at *
          cases hs : s.sync.state <;> simp_all

/-- A missed cycle: with the accepted mark clear, UNSYNCED has both counts 0 and no mark (R91 to R95). -/
theorem missCycle_syncInv {s : State} (ha : s.sync.accepted = false) (h : s.SyncInv) : s.missCycle.SyncInv := by
  unfold State.SyncInv at *
  rw [missCycle_sync]
  cases hs : s.sync.state <;> dsimp only
  case unsynced => exact h
  case acquiring => exact ⟨rfl, rfl, ha⟩
  case locked =>
    simp only [SyncRecord.Inv, hs] at h
    split
    · exact ⟨rfl, rfl, ha⟩
    · exact ⟨h.1, Nat.le_refl 1⟩
  case holdover =>
    simp only [SyncRecord.Inv, hs] at h
    split
    · exact ⟨rfl, rfl, ha⟩
    · simp only [SyncRecord.Inv, hs]
      exact ⟨h.1, Nat.le_add_left ..⟩

/-- The marks that a natural cycle start clears leave the counts as the sync state has them (R85). -/
theorem SyncRecord.Inv.turned {r : SyncRecord} (h : r.Inv) : { r with accepted := false, mismatchMark := none }.Inv := by
  unfold SyncRecord.Inv at *
  cases hs : r.state <;> simp_all

theorem syncInv_closed : GateClosed State.SyncInv where
  kept hk := syncInv_same hk.sync
  advance _ h := syncInv_same rfl h
  cycleStart _ h := by
    rw [State.SyncInv, cycleStart_sync]
    exact SyncRecord.Inv.turned h
  takeSync a b n l _ h := takeSync_syncInv a b n l h
  missCycle _ ha h := missCycle_syncInv ha h
  warmRestart _ _ := SyncRecord.initial_inv
  powerOn _ _ _ _ := SyncRecord.initial_inv
  resetAssert h := syncInv_same rfl h
  renewLease _ h := syncInv_same rfl h
  record _ _ h := syncInv_same rfl h
  endSession i h := syncInv_same (endSession_spec _ i).1.sync h
  loseSink _ h := syncInv_same rfl h
  acceptOpen _ _ h := syncInv_same (acceptOpen_spec ..).1.sync h
  stage _ _ _ h := syncInv_same rfl h
  commit _ _ _ h := syncInv_same rfl h
  abort _ _ _ h := syncInv_same rfl h
  restartMark h := syncInv_same rfl h
  clearCounters h := syncInv_same rfl h

/-- Settles O53: both conditions are kept by the operations on the gate-wide state, so by every step. -/
theorem everyStepKeepsLockAndSyncRecord : Obligations.EveryStepKeepsLockAndSyncRecord :=
  ⟨lockInv_closed.step fun _ _ => lockInv_same rfl rfl rfl rfl, syncInv_closed.step fun _ _ => syncInv_same rfl⟩

end Sys2Proof.Machine
end

section
/-! The standing conditions on sessions and on the staged copy (R43, R133). -/

namespace Sys2Proof.Machine

open Sys2Proof

/-! ### Session slots (R133) -/

/-- The condition of R133 on the four slots. -/
structure SlotsOk (q : Quad (Option Session)) : Prop where
  ranges : ∀ i x, q.get i = some x → x.ok
  stations : ∀ i j x y, q.get i = some x → q.get j = some y → x.station = y.station → i = j
  edits : ∀ i j x y, q.get i = some x → q.get j = some y → x.mode = .edit → y.mode = .edit → i = j

theorem sessionInv_iff {s : State} : s.SessionInv ↔ SlotsOk s.mgmt.slots :=
  ⟨fun ⟨hr, hs, he⟩ => ⟨hr, hs, he⟩, fun ⟨hr, hs, he⟩ => ⟨hr, hs, he⟩⟩

/-- A change of the records in place that keeps station and mode, and the ranges. -/
theorem SlotsOk.map {q : Quad (Option Session)} (h : SlotsOk q) {f : Session → Session} (hstation : ∀ x, (f x).station = x.station)
    (hmode : ∀ x, (f x).mode = x.mode) (hok : ∀ x, x.ok → (f x).ok) : SlotsOk (q.map fun x => x.map f) := by
  have hget {i x} (hx : (q.map fun x => x.map f).get i = some x) : ∃ y, q.get i = some y ∧ f y = x := by
    simpa using hx
  refine ⟨fun i x hx => ?_, fun i j x y hx hy he => ?_, fun i j x y hx hy hm hn => ?_⟩
  · obtain ⟨z, hz, rfl⟩ := hget hx
    exact hok z (h.ranges i z hz)
  · obtain ⟨a, ha, rfl⟩ := hget hx
    obtain ⟨b, hb, rfl⟩ := hget hy
    exact h.stations i j a b ha hb (by rwa [hstation, hstation] at he)
  · obtain ⟨a, ha, rfl⟩ := hget hx
    obtain ⟨b, hb, rfl⟩ := hget hy
    exact h.edits i j a b ha hb ((hmode a).symm.trans hm) ((hmode b).symm.trans hn)

/-- A slot that is freed leaves the others as they were. -/
theorem Quad.get_set_none {q : Quad (Option Session)} {i j : Fin 4} {x : Session} (h : (q.set i none).get j = some x) :
    j ≠ i ∧ q.get j = some x := by
  rw [Quad.get_set] at h
  split at h
  · cases h
  · next hj => exact ⟨hj, h⟩

theorem SlotsOk.free {q : Quad (Option Session)} (h : SlotsOk q) (i : Fin 4) : SlotsOk (q.set i none) :=
  ⟨fun j x hx => h.ranges j x (Quad.get_set_none hx).2,
    fun j k x y hx hy => h.stations j k x y (Quad.get_set_none hx).2 (Quad.get_set_none hy).2,
    fun j k x y hx hy => h.edits j k x y (Quad.get_set_none hx).2 (Quad.get_set_none hy).2⟩

/-- A new record of a station that has none, and of mode EDIT only where there is no other. -/
theorem SlotsOk.put {q : Quad (Option Session)} (h : SlotsOk q) (k : Fin 4) {x : Session} (hx : x.ok)
    (hstation : ∀ j y, q.get j = some y → y.station ≠ x.station) (hedit : x.mode = .edit → ∀ j y, q.get j = some y → y.mode ≠ .edit) :
    SlotsOk (q.set k (some x)) := by
  have hget {j y} (hy : (q.set k (some x)).get j = some y) : j = k ∧ y = x ∨ q.get j = some y := by
    rw [Quad.get_set] at hy
    split at hy
    · next hj => exact .inl ⟨hj, (Option.some.inj hy).symm⟩
    · exact .inr hy
  refine ⟨fun j y hy => ?_, fun i j a b ha hb he => ?_, fun i j a b ha hb hm hn => ?_⟩
  · rcases hget hy with ⟨-, rfl⟩ | hy
    · exact hx
    · exact h.ranges j y hy
  · rcases hget ha with ⟨rfl, rfl⟩ | ha' <;> rcases hget hb with ⟨rfl, rfl⟩ | hb'
    · rfl
    · exact absurd he.symm (hstation j b hb')
    · exact absurd he (hstation i a ha')
    · exact h.stations i j a b ha' hb' he
  · rcases hget ha with ⟨rfl, rfl⟩ | ha' <;> rcases hget hb with ⟨rfl, rfl⟩ | hb'
    · rfl
    · exact absurd hn (hedit hm j b hb')
    · exact absurd hm (hedit hn i a ha')
    · exact h.edits i j a b ha' hb' hm hn

/-- Where some slot holds an EDIT session, `editStation` names the station of one. -/
theorem editStation_of_edit {q : Quad (Option Session)} {i : Fin 4} {x : Session} (hx : q.get i = some x) (hm : x.mode = .edit) :
    ∃ j y, q.get j = some y ∧ y.mode = .edit ∧ editStation q = some y.station := by
  have hmem : x ∈ q.toList.filterMap id := List.mem_filterMap.2 ⟨some x, by rw [← hx, Quad.mem_toList]; exact ⟨i, rfl⟩, rfl⟩
  cases hf : (q.toList.filterMap id).find? fun y => y.mode = .edit with
  | none => exact absurd (List.find?_eq_none.1 hf x hmem) (by simp [hm])
  | some y =>
    obtain ⟨z, hz, hzy⟩ := List.mem_filterMap.1 (List.mem_of_find?_eq_some hf)
    obtain ⟨j, hj⟩ := (Quad.mem_toList ..).1 hz
    exact ⟨j, y, by rw [hj]; exact hzy, by simpa using List.find?_some hf, by rw [editStation, hf]; rfl⟩

/-- Once a station's session has ended, the slots hold the sessions of other stations, each in the slot it had (R137). -/
theorem sessionEnded_get {s : State} (h : s.SessionInv) (n : Byte) (j : Fin 4) (y : Session) :
    (s.sessionEnded n).mgmt.slots.get j = some y ↔ s.mgmt.slots.get j = some y ∧ y.station ≠ n := by
  unfold State.sessionEnded
  split
  · next i hi =>
    obtain ⟨x, hx, hn⟩ := sessionSlot_some hi
    rw [(endSession_spec s i).2.1]
    dsimp only
    constructor
    · intro hy
      obtain ⟨hji, hy⟩ := Quad.get_set_none hy
      exact ⟨hy, fun he => hji ((sessionInv_iff.1 h).stations j i y x hy hx (he.trans hn.symm))⟩
    · rintro ⟨hy, hne⟩
      rw [Quad.get_set, if_neg, hy]
      rintro rfl
      rw [hx] at hy
      cases hy
      exact hne hn
  · next hi => exact ⟨fun hy => ⟨hy, sessionSlot_none hi j y hy⟩, fun hy => hy.1⟩

theorem slotsOk_empty : SlotsOk (Quad.fill none) := by
  refine ⟨fun i x hx => ?_, fun i j x y hx => ?_, fun i j x y hx => ?_⟩ <;> cases (Quad.get_fill ..).symm.trans hx

theorem validSource_iff {h : RequestHead} : validSource h = true ↔ 1 ≤ h.source.toNat ∧ h.source.toNat ≤ 254 := by
  have hz : h.source = 0 ↔ h.source.toNat = 0 := by rw [← BitVec.toNat_inj]; rfl
  have ht : h.source = 255 ↔ h.source.toNat = 255 := by rw [← BitVec.toNat_inj]; rfl
  have := h.source.isLt
  simp only [validSource, ne_eq, Bool.and_eq_true, decide_not, Bool.not_eq_true', decide_eq_false_iff_not, hz, ht]
  omega

theorem openedSession_ok {s : State} {h : RequestHead} {m : SessionMode} {l : Nat} (k : Fin 4) (ho : OpenOk s h m l) :
    (openedSession h m l k).ok :=
  have hs := validSource_iff.1 ho.source
  ⟨hs.1, hs.2, ho.low, ho.high, Nat.le_refl l⟩

/-- The sessions after an accepted OPEN: those of the other stations and the new one (R137). -/
theorem acceptOpen_slotsOk {s : State} {h : RequestHead} {m : SessionMode} {l : Nat} (ho : OpenOk s h m l) (hs : s.SessionInv) :
    SlotsOk (s.acceptOpen h m l).mgmt.slots := by
  have hended : SlotsOk (s.sessionEnded h.source).mgmt.slots := by
    unfold State.sessionEnded
    split
    · rw [(endSession_spec ..).2.1]
      exact (sessionInv_iff.1 hs).free _
    · exact sessionInv_iff.1 hs
  rw [(acceptOpen_spec s h m l).2.2]
  split
  · exact hended
  · next k _ =>
    rw [(sessionOpened_spec ..).2.2]
    have hput : SlotsOk ((s.sessionEnded h.source).mgmt.slots.set k (some (openedSession h m l k))) := by
      refine hended.put k (openedSession_ok k ho) (fun j y hy => ((sessionEnded_get hs ..).1 hy).2) fun hm j y hy he => ?_
      obtain ⟨hy, hne⟩ := (sessionEnded_get hs ..).1 hy
      obtain ⟨i, z, hz, hze, hst⟩ := editStation_of_edit hy he
      have hij := (sessionInv_iff.1 hs).edits i j z y hz hy hze he
      subst hij
      rw [hy] at hz
      cases hz
      exact hne (ho.edit hm _ hst)
    dsimp only
    split
    · exact hput.map (fun _ => rfl) (fun _ => rfl) fun _ hx => hx
    · exact hput

theorem sessionInv_same {s t : State} (h : t.mgmt.slots = s.mgmt.slots) (hs : s.SessionInv) : t.SessionInv := by
  rw [sessionInv_iff] at *
  rwa [h]

/-- A change of one station's record that keeps station, mode and ranges. -/
theorem SlotsOk.onSession {q : Quad (Option Session)} (h : SlotsOk q) (n : Byte) {f : Session → Session}
    (hstation : ∀ x, (f x).station = x.station) (hmode : ∀ x, (f x).mode = x.mode) (hok : ∀ x, x.ok → (f x).ok) :
    SlotsOk (onSession q n f) := by
  refine h.map (fun x => ?_) (fun x => ?_) fun x hx => ?_
  · split
    · exact hstation x
    · rfl
  · split
    · exact hmode x
    · rfl
  · split
    · exact hok x hx
    · exact hx

theorem sessionInv_closed : GateClosed State.SessionInv where
  kept hk := sessionInv_same (by rw [hk.mgmt])
  advance {s} n h := by
    refine sessionInv_iff.2 ((sessionInv_iff.1 h).map
      (f := fun y => { y with remaining := y.remaining - ticksBetween s.clock.elapsed (s.clock.elapsed + n) })
      (fun _ => rfl) (fun _ => rfl) fun x hx => ?_)
    obtain ⟨h1, h2, h3, h4, h5⟩ := hx
    exact ⟨h1, h2, h3, h4, Nat.le_trans (Nat.sub_le ..) h5⟩
  cycleStart _ := sessionInv_same (by rw [cycleStart_mgmt])
  takeSync a b n l _ := sessionInv_same (by rw [(takeSync_timing ..).mgmt])
  missCycle _ _ := sessionInv_same (by rw [(missCycle_timing _).1.mgmt])
  warmRestart {s} _ _ := sessionInv_iff.2 slotsOk_empty
  powerOn _ _ _ _ := sessionInv_iff.2 slotsOk_empty
  resetAssert := sessionInv_same rfl
  renewLease n h := sessionInv_iff.2 ((sessionInv_iff.1 h).onSession n (fun _ => rfl) (fun _ => rfl)
    fun _ ⟨h1, h2, h3, h4, _⟩ => ⟨h1, h2, h3, h4, Nat.le_refl _⟩)
  record r b h := sessionInv_iff.2 ((sessionInv_iff.1 h).onSession r.source (fun _ => rfl) (fun _ => rfl) fun _ hx => hx)
  endSession {s} i h := by
    rw [sessionInv_iff, (endSession_spec s i).2.1]
    exact (sessionInv_iff.1 h).free i
  loseSink n h := sessionInv_iff.2 ((sessionInv_iff.1 h).onSession n (fun _ => rfl) (fun _ => rfl) fun _ hx => hx)
  acceptOpen _ ho h := sessionInv_iff.2 (acceptOpen_slotsOk ho h)
  stage _ _ _ := sessionInv_same rfl
  commit _ _ _ := sessionInv_same rfl
  abort _ _ _ := sessionInv_same rfl
  restartMark := sessionInv_same rfl
  clearCounters := sessionInv_same rfl

/-! ### The staged copy (R43) -/

/-- No slot holds an EDIT session. -/
def NoEdit (q : Quad (Option Session)) : Prop := ∀ i x, q.get i = some x → x.mode ≠ .edit

theorem stagedInv_iff {s : State} :
    s.StagedInv ↔ (NoEdit s.mgmt.slots → s.cfg.armed = none → s.cfg.staged = s.cfg.active ∧ s.cfg.edited = false) := .rfl

/-- The condition reads the configuration unit and whether a slot holds an EDIT session. -/
theorem stagedInv_same {s t : State} (hc : t.cfg = s.cfg) (hq : NoEdit t.mgmt.slots → NoEdit s.mgmt.slots) (h : s.StagedInv) :
    t.StagedInv := by
  rw [stagedInv_iff] at *
  rw [hc]
  exact fun hn => h (hq hn)

theorem NoEdit.of_map {q : Quad (Option Session)} {f : Session → Session} (hmode : ∀ x, (f x).mode = x.mode)
    (h : NoEdit (q.map fun x => x.map f)) : NoEdit q :=
  fun i x hx => hmode x ▸ h i (f x) (by simp [hx])

theorem NoEdit.of_onSession {q : Quad (Option Session)} (n : Byte) {f : Session → Session} (hmode : ∀ x, (f x).mode = x.mode)
    (h : NoEdit (onSession q n f)) : NoEdit q := by
  refine NoEdit.of_map (fun x => ?_) h
  split
  · exact hmode x
  · rfl

theorem EditHeld.not_noEdit {s : State} (h : s.EditHeld) : ¬NoEdit s.mgmt.slots := fun hn =>
  have ⟨i, x, hx, hm⟩ := h
  hn i x hx hm

/-- While a session is in EDIT the condition says nothing. -/
theorem stagedInv_of_edit {s : State} (h : ¬NoEdit s.mgmt.slots) : s.StagedInv := fun hn => absurd hn h

theorem stagedInv_of_equal {s : State} (hs : s.cfg.staged = s.cfg.active) (he : s.cfg.edited = false) : s.StagedInv :=
  fun _ _ => ⟨hs, he⟩

/-- The end of the last EDIT session takes unarmed staged work with it (R60). -/
theorem stagedInv_endSession {s : State} (i : Fin 4) (h : s.StagedInv) : (s.endSession i).StagedInv := by
  obtain ⟨-, hm, hc, -⟩ := endSession_spec s i
  rw [stagedInv_iff, hm, hc]
  cases hx : s.mgmt.slots.get i with
  | none =>
    refine fun hn => h fun j y hy => ?_
    refine hn j y ?_
    dsimp only
    rw [Quad.get_set, if_neg, hy]
    rintro rfl
    rw [hx] at hy
    cases hy
  | some x =>
    intro hn ha
    have ha : s.cfg.armed = none := (atSessionEnd_active ..).2.2.symm.trans ha
    dsimp only
    unfold ConfigUnit.atSessionEnd
    split
    · exact ⟨rfl, rfl⟩
    · next hx' =>
      refine h (fun j y hy hmode => ?_) ha
      by_cases hj : j = i
      · subst hj
        rw [hx] at hy
        cases hy
        exact hx' ⟨hmode, ha⟩
      · exact hn j y (by dsimp only; rw [Quad.get_set, if_neg hj, hy]) hmode

/-- A slot that is filled was free before. -/
theorem NoEdit.of_set {q : Quad (Option Session)} {k : Fin 4} (hk : q.get k = none) {x : Session}
    (h : NoEdit (q.set k (some x))) : NoEdit q := fun j y hy => h j y <| by
  rw [Quad.get_set, if_neg, hy]
  rintro rfl
  rw [hk] at hy
  cases hy

theorem stagedInv_acceptOpen {s : State} {h : RequestHead} {m : SessionMode} {l : Nat} (hs : s.StagedInv) :
    (s.acceptOpen h m l).StagedInv := by
  obtain ⟨-, hc, hm⟩ := acceptOpen_spec s h m l
  refine stagedInv_same hc (fun hn => ?_) (sessionEnded_kept_of stagedInv_endSession h.source hs)
  rw [hm] at hn
  split at hn
  · exact hn
  · next k hk =>
    rw [(sessionOpened_spec ..).2.2] at hn
    dsimp only at hn
    refine NoEdit.of_set (freeSlot_some hk) (x := openedSession h m l k) ?_
    split at hn
    · exact NoEdit.of_map (f := fun y => { y with sink := y.station = h.source }) (fun _ => rfl) hn
    · exact hn

theorem stagedInv_closed : GateClosed State.StagedInv where
  kept hk := stagedInv_same hk.cfg (by rw [hk.mgmt]; exact id)
  advance {s} n := stagedInv_same rfl
    (NoEdit.of_map (f := fun y => { y with remaining := y.remaining - ticksBetween s.clock.elapsed (s.clock.elapsed + n) }) fun _ => rfl)
  cycleStart {s} _ h := by
    rw [stagedInv_iff, cycleStart_mgmt, cycleStart_cfg]
    unfold ConfigUnit.atStart
    split
    · exact fun _ _ => ⟨rfl, rfl⟩
    · exact h
  takeSync a b n l _ := stagedInv_same (takeSync_timing ..).cfg (by rw [(takeSync_timing ..).mgmt]; exact id)
  missCycle _ _ := stagedInv_same (missCycle_timing _).1.cfg (by rw [(missCycle_timing _).1.mgmt]; exact id)
  warmRestart _ _ := stagedInv_of_equal rfl rfl
  powerOn _ _ _ _ := stagedInv_of_equal rfl rfl
  resetAssert := stagedInv_same rfl id
  renewLease n := stagedInv_same rfl (NoEdit.of_onSession n fun _ => rfl)
  record r _ := stagedInv_same rfl (NoEdit.of_onSession r.source fun _ => rfl)
  endSession := stagedInv_endSession
  loseSink n := stagedInv_same rfl (NoEdit.of_onSession n fun _ => rfl)
  acceptOpen _ _ := stagedInv_acceptOpen
  stage he _ _ _ := stagedInv_of_edit (EditHeld.not_noEdit he)
  commit _ _ he _ := stagedInv_of_edit (EditHeld.not_noEdit he)
  abort _ _ he _ := stagedInv_of_edit (EditHeld.not_noEdit he)
  restartMark := stagedInv_same rfl id
  clearCounters := stagedInv_same rfl id

/-- Settles O54: both conditions are kept by the operations on the gate-wide state, so by every step. -/
theorem everyStepKeepsSessionsAndStaging : Obligations.EveryStepKeepsSessionsAndStaging :=
  ⟨sessionInv_closed.step fun _ _ => sessionInv_same rfl, stagedInv_closed.step fun _ _ => stagedInv_same rfl id⟩

end Sys2Proof.Machine
end

section
/-! The standing condition on the two configurations (R2, R22, R23, R42, R43, R53): what a staging request writes keeps the limits, and the other
operations copy configurations that do. -/

namespace Sys2Proof.Machine

open Sys2Proof

/-! ### The listed table and schedule -/

theorem mem_putStream {e x : StreamEntry} {l : List StreamEntry} (h : x ∈ putStream e l) : x = e ∨ x ∈ l := by
  induction l with
  | nil => exact .inl (List.mem_singleton.1 h)
  | cons y ys ih =>
    unfold putStream at h
    split at h
    · grind
    · split at h
      · grind
      · rcases List.mem_cons.1 h with rfl | h
        · exact .inr (List.mem_cons_self ..)
        · exact (ih h).imp_right (List.mem_cons_of_mem _)

/-- An entry put in its place leaves the table listed by stream number, each number once. -/
theorem putStream_pairwise (e : StreamEntry) {l : List StreamEntry} (h : l.Pairwise fun a b => a.stream.toNat < b.stream.toNat) :
    (putStream e l).Pairwise fun a b => a.stream.toNat < b.stream.toNat := by
  induction l with
  | nil => exact List.pairwise_singleton ..
  | cons y ys ih =>
    obtain ⟨hy, hys⟩ := List.pairwise_cons.1 h
    unfold putStream
    split
    · next heq => exact List.pairwise_cons.2 ⟨fun z hz => heq ▸ hy z hz, hys⟩
    · next hne =>
      split
      · next hlt =>
        refine List.pairwise_cons.2 ⟨fun z hz => ?_, h⟩
        rcases List.mem_cons.1 hz with rfl | hz
        · exact hlt
        · exact hlt.trans (hy z hz)
      · next hge =>
        refine List.pairwise_cons.2 ⟨fun z hz => ?_, ih hys⟩
        rcases mem_putStream hz with rfl | hz
        · have : y.stream.toNat ≠ z.stream.toNat := fun he => hne (BitVec.eq_of_toNat_eq he)
          omega
        · exact hy z hz

/-- In a listed table, an entry of a number that has one takes its place, and any other makes the table one longer. -/
theorem putStream_length (e : StreamEntry) {l : List StreamEntry} (h : l.Pairwise fun a b => a.stream.toNat < b.stream.toNat) :
    (putStream e l).length = if (l.find? fun x => x.stream = e.stream) = none then l.length + 1 else l.length := by
  induction l with
  | nil => rfl
  | cons y ys ih =>
    obtain ⟨hy, hys⟩ := List.pairwise_cons.1 h
    unfold putStream
    split
    · next heq => simp [List.find?, heq]
    · next hne =>
      have hfind : ((y :: ys).find? fun x => x.stream = e.stream) = ys.find? fun x => x.stream = e.stream := by
        simp [List.find?, hne]
      rw [hfind]
      split
      · next hlt =>
        rw [if_pos]
        · rfl
        · rw [List.find?_eq_none]
          intro x hx
          have := hlt.trans (hy x hx)
          simp only [decide_eq_true_eq]
          rintro hxe
          rw [hxe] at this
          omega
      · rw [List.length_cons, ih hys]
        split <;> rfl

theorem portCode_inj {p q : Port} (h : (portCode p).toNat = (portCode q).toNat) : p = q := by
  cases p <;> cases q <;> simp [portCode] at h ⊢

/-- Two windows of different keys stand in one order or the other. -/
theorem Window.before_total {v w : Window} (hk : ¬v.sameKey w = true) (h : ¬w.before v = true) : v.before w = true := by
  rw [Window.sameKey_iff] at hk
  rw [Window.before_iff] at *
  rcases Nat.lt_trichotomy (portCode v.port).toNat (portCode w.port).toNat with hp | hp | hp
  · exact .inl hp
  · have hp := portCode_inj hp
    refine .inr ⟨hp, ?_⟩
    have : v.start ≠ w.start := fun he => hk ⟨hp, he⟩
    have : ¬w.start < v.start := fun hl => h (.inr ⟨hp.symm, hl⟩)
    omega
  · exact absurd (.inl hp) h

/-- A window put in its place leaves the schedule listed, each key once. -/
theorem putWindow_pairwise (w : Window) {l : List Window} (h : l.Pairwise fun a b => a.before b = true) :
    (putWindow w l).Pairwise fun a b => a.before b = true := by
  induction l with
  | nil => exact List.pairwise_singleton ..
  | cons x xs ih =>
    obtain ⟨hx, hxs⟩ := List.pairwise_cons.1 h
    unfold putWindow
    split
    · next hk => exact List.pairwise_cons.2 ⟨fun y hy => Window.before_of_sameKey hk (hx y hy), hxs⟩
    · next hk =>
      split
      · next hb =>
        refine List.pairwise_cons.2 ⟨fun y hy => ?_, h⟩
        rcases List.mem_cons.1 hy with rfl | hy
        · exact hb
        · exact Window.before_trans hb (hx y hy)
      · next hb =>
        refine List.pairwise_cons.2 ⟨fun y hy => ?_, ih hxs⟩
        rcases (mem_putWindow hxs).1 hy with rfl | ⟨hy, -⟩
        · exact Window.before_total hk hb
        · exact hx y hy

/-- In a listed schedule, a window of a key that has one takes its place, and any other makes the schedule one longer. -/
theorem putWindow_length (w : Window) {l : List Window} (h : l.Pairwise fun a b => a.before b = true) :
    (putWindow w l).length = if l.any (·.sameKey w) = false then l.length + 1 else l.length := by
  induction l with
  | nil => rfl
  | cons x xs ih =>
    obtain ⟨hx, hxs⟩ := List.pairwise_cons.1 h
    unfold putWindow
    split
    · next hk => simp [hk]
    · next hk =>
      have hany : (x :: xs).any (·.sameKey w) = xs.any (·.sameKey w) := by simp [hk]
      rw [hany]
      split
      · next hb =>
        rw [if_pos]
        · rfl
        · exact List.any_eq_false.2 fun y hy => Window.not_sameKey_of_before (Window.before_trans hb (hx y hy))
      · rw [List.length_cons, ih hxs]
        split <;> rfl

/-! ### What staging writes (R45 to R50) -/

theorem firstFailing_none {fields : List (Nat × Bool)} : firstFailing fields = none ↔ ∀ f ∈ fields, f.2 = true := by
  simp [firstFailing, List.find?_eq_none]

/-- A carried entry that passes its range step and names ports is in range (R22). -/
theorem streamBodyEntry_ok {b : StreamBody} (h : firstFailing (streamBodyFields b) = none)
    (hempty : (streamBodyEntry b).egress ≠ PerPort.fill false)
    (hingress : ¬(streamBodyEntry b).egress.get (streamBodyEntry b).ingress = true) : (streamBodyEntry b).ok := by
  rw [firstFailing_none] at h
  simp only [streamBodyFields, List.forall_mem_cons, decide_eq_true_eq] at h
  obtain ⟨hstream, -, -, -, hmax, hbudget, ⟨hlow, hhigh⟩, -⟩ := h
  refine ⟨?_, hempty, by simpa using hingress, hmax, hbudget, hlow, hhigh⟩
  unfold streamOf at hstream
  split at hstream
  · next hr =>
    obtain ⟨h1, h2⟩ := hr
    intro hz
    have hz : (b.stream.setWidth 12).toNat = 0 := by
      have : (b.stream.setWidth 12) = 0 := hz
      rw [this]
      rfl
    rw [BitVec.toNat_setWidth] at hz
    omega
  · cases hstream

/-- A carried window that passes its checks is in range (R1). -/
theorem windowBodyWindow_ok {b : WindowBody} (h : firstFailing (windowBodyFields b) = none)
    (hlength : ¬(windowBodyWindow b).length < 32) (hclasses : (windowBodyWindow b).classes ≠ Quad.fill false)
    (hstart : ¬((windowBodyWindow b).port ≠ .t ∧ (windowBodyWindow b).start < 32)) : (windowBodyWindow b).ok := by
  rw [firstFailing_none] at h
  simp only [windowBodyFields, List.forall_mem_cons, decide_eq_true_eq] at h
  obtain ⟨-, hstop, -⟩ := h
  refine ⟨by omega, hclasses, fun hp => ?_, hstop⟩
  by_contra hs
  exact hstart ⟨hp, by omega⟩

/-- A range that a carried parameter passes holds of the value written, and the old value's of the one that stays. -/
theorem written_ok {w : Nat} {v : Option (BitVec w)} {f : BitVec w → Bool} {Q : Nat → Prop} {old : Nat}
    (h : v.all f = true) (hf : ∀ y, f y = true → Q y.toNat) (hold : Q old) : Q ((v.map (·.toNat)).getD old) := by
  cases v with
  | none => exact hold
  | some y => exact hf y h

theorem applyParams_ok {b : ParamsBody} {p : Params} (h : firstFailing (paramsBodyFields b) = none) (hp : p.ok) :
    (applyParams b p).ok := by
  rw [firstFailing_none] at h
  simp only [paramsBodyFields, carried, List.forall_mem_cons] at h
  obtain ⟨h1, h2, h3, h4, h5, h6, -, h8, -⟩ := h
  obtain ⟨p1, p2, p3, p4, p5, p6, p7, p8, p9, p10, p11, p12, p13⟩ := hp
  have a1 := written_ok (Q := fun n => 1250 ≤ n ∧ n ≤ 12500000) h1 (fun _ => by simp) ⟨p1, p2⟩
  have a2 := written_ok (Q := fun n => n ≤ 12499999) h2 (fun _ => by simp) p3
  have a3 := written_ok (Q := fun n => 16 ≤ n ∧ n ≤ 4096) h3 (fun _ => by simp) ⟨p4, p5⟩
  have a4 := written_ok (Q := fun n => 1 ≤ n ∧ n ≤ 64) h4 (fun _ => by simp) ⟨p6, p7⟩
  have a5 := written_ok (Q := fun n => 2 ≤ n ∧ n ≤ 4095) h5 (fun _ => by simp) ⟨p8, p9⟩
  have a6 := written_ok (Q := fun n => 1 ≤ n ∧ n ≤ 255) h6 (fun _ => by simp) ⟨p10, p11⟩
  have a8 := written_ok (Q := fun n => 1 ≤ n ∧ n ≤ 255) h8 (fun _ => by simp) ⟨p12, p13⟩
  exact ⟨a1.1, a1.2, a2, a3.1, a3.2, a4.1, a4.2, a5.1, a5.2, a6.1, a6.2, a8.1, a8.2⟩

theorem ok_putStream {c : Configuration} (h : c.Ok) {e : StreamEntry} (he : e.ok)
    (hroom : ¬(streamEntry c e.stream = none ∧ Config.tableCapacity ≤ c.streams.length)) :
    { c with streams := putStream e c.streams }.Ok := by
  obtain ⟨hok, hlisted, hlength, hrest⟩ := h
  refine ⟨fun x hx => ?_, putStream_pairwise e hlisted, ?_, hrest⟩
  · rcases mem_putStream hx with rfl | hx
    · exact he
    · exact hok x hx
  · have := putStream_length e hlisted
    unfold streamEntry at hroom
    dsimp only
    rw [this]
    split
    · next hn =>
      have : ¬Config.tableCapacity ≤ c.streams.length := fun hc => hroom ⟨hn, hc⟩
      omega
    · exact hlength

theorem ok_filterStreams {c : Configuration} (h : c.Ok) (f : StreamEntry → Bool) : { c with streams := c.streams.filter f }.Ok := by
  obtain ⟨hok, hlisted, hlength, hrest⟩ := h
  exact ⟨fun x hx => hok x (List.mem_filter.1 hx).1, hlisted.filter f, (List.length_filter_le ..).trans hlength, hrest⟩

theorem ok_filterWindows {c : Configuration} (h : c.Ok) (f : Window → Bool) : { c with windows := c.windows.filter f }.Ok := by
  obtain ⟨h1, h2, h3, hok, hlisted, hover, hlength, hparams⟩ := h
  exact ⟨h1, h2, h3, fun x hx => hok x (List.mem_filter.1 hx).1, hlisted.filter f,
    fun v hv w hw => hover v (List.mem_filter.1 hv).1 w (List.mem_filter.1 hw).1, (List.length_filter_le ..).trans hlength, hparams⟩

theorem Window.overlaps_comm (v w : Window) : v.overlaps w = w.overlaps v := by
  simp only [Window.overlaps, Bool.or_comm]

theorem Window.sameKey_comm (v w : Window) : v.sameKey w = w.sameKey v := by
  simp only [Window.sameKey, eq_comm]

theorem ok_putWindow {c : Configuration} (h : c.Ok) {w : Window} (hw : w.ok)
    (hfree : ((portWindows c w.port).find? fun v => !v.sameKey w && v.overlaps w) = none)
    (hroom : ¬(c.windows.any (·.sameKey w) = false ∧ Config.windowCapacity ≤ c.windows.length)) :
    { c with windows := putWindow w c.windows }.Ok := by
  obtain ⟨h1, h2, h3, hok, hlisted, hover, hlength, hparams⟩ := h
  have hclear : ∀ v ∈ c.windows, v.port = w.port → v.sameKey w = false → v.overlaps w = false := by
    intro v hv hp hk
    have := List.find?_eq_none.1 hfree v (List.mem_filter.2 ⟨hv, by simpa using hp⟩)
    simpa [hk] using this
  refine ⟨h1, h2, h3, fun v hv => ?_, putWindow_pairwise w hlisted, fun u hu v hv hp hk => ?_, ?_, hparams⟩
  · rcases (mem_putWindow hlisted).1 hv with rfl | ⟨hv, -⟩
    · exact hw
    · exact hok v hv
  · rcases (mem_putWindow hlisted).1 hu with rfl | ⟨hu', -⟩ <;> rcases (mem_putWindow hlisted).1 hv with rfl | ⟨hv', -⟩
    · simp [Window.sameKey] at hk
    · rw [Window.overlaps_comm]
      exact hclear v hv' hp.symm (by rwa [Window.sameKey_comm])
    · exact hclear u hu' hp hk
    · exact hover u hu' v hv' hp hk
  · have := putWindow_length w hlisted
    dsimp only
    rw [this]
    split
    · next hn =>
      have : ¬Config.windowCapacity ≤ c.windows.length := fun hc => hroom ⟨hn, hc⟩
      omega
    · exact hlength

/-- What a staging request writes keeps the limits of staging (R45 to R50). -/
theorem StagingJudge.written_ok {j : Configuration → Judgement} (hj : StagingJudge j) {c x : Configuration} (hc : c.Ok)
    (hx : (j c).written = some x) : x.Ok := by
  cases hj with
  | streamPut b =>
    unfold judgeStreamPut at hx
    split at hx
    · cases hx
    · next hf =>
      dsimp only at hx
      split at hx
      · cases hx
      · next he =>
        split at hx
        · cases hx
        · next hi =>
          split at hx
          · cases hx
          · next hroom =>
            cases hx
            exact ok_putStream hc (streamBodyEntry_ok hf he hi) hroom
  | streamDelete n =>
    unfold judgeStreamDelete at hx
    split at hx
    · cases hx
    · split at hx
      · cases hx
      · cases hx
        exact ok_filterStreams hc _
  | windowPut b =>
    unfold judgeWindowPut at hx
    split at hx
    · cases hx
    · next hf =>
      dsimp only at hx
      split at hx
      · cases hx
      · next hl =>
        split at hx
        · cases hx
        · next hcl =>
          split at hx
          · cases hx
          · next hs =>
            split at hx
            · cases hx
            · next hfree =>
              split at hx
              · cases hx
              · next hroom =>
                cases hx
                exact ok_putWindow hc (windowBodyWindow_ok hf hl hcl hs) hfree hroom
  | windowDelete p n =>
    unfold judgeWindowDelete at hx
    split at hx
    · cases hx
    · split at hx
      · cases hx
        exact ok_filterWindows hc _
      · cases hx
  | windowClear p =>
    unfold judgeWindowClear at hx
    split at hx
    · cases hx
    · cases hx
      exact ok_filterWindows hc _
  | params b =>
    unfold judgeParams at hx
    split at hx
    · cases hx
    · next hf =>
      cases hx
      obtain ⟨h1, h2, h3, h4, h5, h6, h7, hp⟩ := hc
      exact ⟨h1, h2, h3, h4, h5, h6, h7, applyParams_ok hf hp⟩

/-! ### The configuration unit -/

/-- The condition on the configuration unit, with the policy of the straps. -/
def ConfigUnit.Ok (c : ConfigUnit) (policy : Policy) : Prop :=
  c.active.Ok ∧ c.staged.Ok ∧ (c.armed ≠ none → validate c.staged = none) ∧ (c.generation ≠ 0 → validate c.active = none) ∧
    (c.generation = 0 → c.active = .powerOn policy)

theorem configInv_iff {s : State} : s.ConfigInv ↔ s.cfg.Ok s.straps.policy := .rfl

theorem configInv_same {s t : State} (hc : t.cfg = s.cfg) (hp : t.straps = s.straps) (h : s.ConfigInv) : t.ConfigInv := by
  rw [configInv_iff] at *
  rwa [hc, hp]

theorem nextGeneration_ne_zero (g : Half) : nextGeneration g ≠ 0 := by
  unfold nextGeneration
  split
  · decide
  · next hg => bv_omega

namespace ConfigUnit.Ok

variable {c : ConfigUnit} {policy : Policy}

/-- A swap installs a copy that the commit validated (R53, R54). -/
theorem atStart (h : c.Ok policy) (n : Word) : (c.atStart n).Ok policy := by
  unfold ConfigUnit.atStart
  split
  · next hd =>
    obtain ⟨-, hstaged, harmed, -⟩ := h
    have hv : validate c.staged = none := harmed fun hn => by simp [swapDue, hn] at hd
    exact ⟨hstaged, hstaged, fun hn => absurd rfl hn, fun _ => hv, fun h0 => absurd h0 (nextGeneration_ne_zero _)⟩
  · exact h

/-- The staged copy made equal to the active one, with nothing armed. -/
theorem discard (h : c.Ok policy) : { c with staged := c.active, armed := none, edited := false }.Ok policy :=
  have ⟨hactive, _, _, hgen, hzero⟩ := h
  ⟨hactive, hactive, fun hn => absurd rfl hn, hgen, hzero⟩

theorem atSessionEnd (h : c.Ok policy) (m : SessionMode) : (c.atSessionEnd m).Ok policy := by
  unfold ConfigUnit.atSessionEnd
  split
  · next hm => simpa [hm.2] using h.discard
  · exact h

theorem stage (h : c.Ok policy) (ha : c.armed = none) {j : Configuration → Judgement} (hj : StagingJudge j) :
    (c.stage (j c.staged)).Ok policy := by
  obtain ⟨hactive, hstaged, -, hgen, hzero⟩ := h
  unfold ConfigUnit.stage
  split
  · next x hx => exact ⟨hactive, hj.written_ok hstaged hx, fun hn => absurd ha hn, hgen, hzero⟩
  · exact ⟨hactive, hstaged, fun hn => absurd ha hn, hgen, hzero⟩

/-- COMMIT arms a copy that every check passes (R51, R52). -/
theorem commit (h : c.Ok policy) (n x : Word) : (c.commit n x).1.Ok policy := by
  unfold ConfigUnit.commit
  split
  · exact h
  · split
    · exact h
    · split
      · exact h
      · next hv =>
        obtain ⟨hactive, hstaged, -, hgen, hzero⟩ := h
        exact ⟨hactive, hstaged, fun _ => hv, hgen, hzero⟩

theorem disarm (h : c.Ok policy) : { c with armed := none }.Ok policy :=
  have ⟨hactive, hstaged, _, hgen, hzero⟩ := h
  ⟨hactive, hstaged, fun hn => absurd rfl hn, hgen, hzero⟩

theorem discardIf (h : c.Ok policy) (ha : c.armed = none) (b : Bool) : (c.discardIf b).Ok policy := by
  unfold ConfigUnit.discardIf
  split
  · simpa [ha] using h.discard
  · exact h

theorem abort (h : c.Ok policy) (o : Byte) (e : Half) : (c.abort o e).1.Ok policy := by
  unfold ConfigUnit.abort
  split
  · exact h
  · split
    · exact h
    · split
      · exact h.disarm.discardIf rfl _
      · next ha => exact h.discardIf ha _

end ConfigUnit.Ok

theorem configuration_powerOn_ok (p : Policy) : (Configuration.powerOn p).Ok := by
  simp [Configuration.Ok, Configuration.powerOn, Params.ok, Params.powerOn]

theorem configInv_endSession {s : State} (i : Fin 4) (h : s.ConfigInv) : (s.endSession i).ConfigInv := by
  obtain ⟨hk, -, hc, -⟩ := endSession_spec s i
  rw [configInv_iff] at *
  rw [hc, hk.straps]
  split
  · exact h
  · exact h.atSessionEnd _

theorem configInv_closed : GateClosed State.ConfigInv where
  kept hk := configInv_same hk.cfg hk.straps
  advance _ := configInv_same rfl rfl
  cycleStart _ h := by
    rw [configInv_iff] at *
    rw [cycleStart_cfg, cycleStart_straps]
    exact h.atStart _
  takeSync a b n l _ := configInv_same (takeSync_timing ..).cfg (takeSync_timing ..).straps
  missCycle _ _ := configInv_same (missCycle_timing _).1.cfg (missCycle_timing _).1.straps
  warmRestart _ h := ConfigUnit.Ok.discard h
  powerOn _ b _ _ :=
    ⟨configuration_powerOn_ok _, configuration_powerOn_ok _, fun hn => absurd rfl hn, fun hn => absurd rfl hn, fun _ => rfl⟩
  resetAssert := configInv_same rfl rfl
  renewLease _ := configInv_same rfl rfl
  record _ _ := configInv_same rfl rfl
  endSession := configInv_endSession
  loseSink _ := configInv_same rfl rfl
  acceptOpen {s r m l} _ _ h := by
    obtain ⟨hk, hc, -⟩ := acceptOpen_spec s r m l
    exact configInv_same hc (hk.straps.trans (sessionEnded_kept s r.source).straps.symm)
      (sessionEnded_kept_of configInv_endSession r.source h)
  stage _ ha hj h := ConfigUnit.Ok.stage h ha hj
  commit n x _ h := ConfigUnit.Ok.commit h n x
  abort o e _ h := ConfigUnit.Ok.abort h o e
  restartMark := configInv_same rfl rfl
  clearCounters := configInv_same rfl rfl

end Sys2Proof.Machine
end

section
/-! Admission in closed form (R35, R37 to R39): what an offer makes of a port, and what an accepted frame makes of every port, the records and the
frame store. -/

namespace Sys2Proof.Machine

open Sys2Proof

/-- Whether a port admits a descriptor: its link UP, the port OPEN, and room in the class queue (R37). -/
def PortUnit.admits (u : PortUnit) (d : Descriptor) : Bool :=
  u.link && decide (u.admin = .opened) && decide ((u.queues.get d.cls).length < Config.classQueueCapacity)

/-- The counters of a port that refuses a descriptor, by the first condition that fails (R37). -/
def PortUnit.refusal (u : PortUnit) : PortCounters :=
  if u.link = false then { u.count with txLinkDown := u.count.txLinkDown + 1 }
  else if u.admin ≠ .opened then { u.count with txDrained := u.count.txDrained + 1 }
  else { u.count with queueFull := u.count.queueFull + 1 }

/-- A port after the offer of a descriptor: taken at the tail of its class queue, or refused and counted (R37). -/
def PortUnit.offered (u : PortUnit) (d : Descriptor) : PortUnit :=
  if u.admits d then { u with queues := u.queues.set d.cls (u.queues.get d.cls ++ [d]) } else { u with count := u.refusal }

theorem PortUnit.admits_iff {u : PortUnit} {d : Descriptor} :
    u.admits d = true ↔ u.link = true ∧ u.admin = .opened ∧ (u.queues.get d.cls).length < Config.classQueueCapacity := by
  simp [PortUnit.admits, and_assoc]

/-- NO_QUEUE counted so many times on a record. -/
def StreamRecord.unqueued (n : Nat) (r : StreamRecord) : StreamRecord := { r with noQueue := r.noQueue + BitVec.ofNat 32 n }

/-- What admission leaves alone. -/
structure AdmissionKept (s t : State) : Prop extends Kept s t where
  store : t.store = s.store
  own : t.own = s.own
  control : t.control = s.control
  events : t.events = s.events
  unknownMarks : t.classifier.unknownMarks = s.classifier.unknownMarks

theorem AdmissionKept.refl (s : State) : AdmissionKept s s := ⟨.refl s, rfl, rfl, rfl, rfl, rfl⟩

theorem AdmissionKept.trans {s t u : State} (h : AdmissionKept s t) (k : AdmissionKept t u) : AdmissionKept s u :=
  ⟨h.toKept.trans k.toKept, k.store.trans h.store, k.own.trans h.own, k.control.trans h.control, k.events.trans h.events,
    k.unknownMarks.trans h.unknownMarks⟩

theorem updateRecord_unqueued_zero (n : StreamNo) (rs : List StreamRecord) : updateRecord n (StreamRecord.unqueued 0) rs = rs := by
  have : StreamRecord.unqueued 0 = id := by
    funext r
    simp [StreamRecord.unqueued]
  simp [updateRecord, this]

theorem updateRecord_unqueued_add (n : StreamNo) (a b : Nat) (rs : List StreamRecord) :
    updateRecord n (StreamRecord.unqueued b) (updateRecord n (StreamRecord.unqueued a) rs) =
      updateRecord n (StreamRecord.unqueued (a + b)) rs := by
  simp only [updateRecord, List.map_map]
  refine List.map_congr_left fun r _ => ?_
  by_cases h : r.stream = n
  · simp [h, StreamRecord.unqueued, BitVec.ofNat_add, BitVec.add_assoc]
  · simp [h]

/-- What one offer does (R37). -/
theorem offer_spec (s : State) (d : Descriptor) (p : Port) :
    AdmissionKept s (s.offer d p).1 ∧ (s.offer d p).1.ports = s.ports.set p ((s.ports.get p).offered d) ∧
    (s.offer d p).2 = (if (s.ports.get p).admits d then 1 else 0) ∧
    (s.offer d p).1.classifier.records =
      updateRecord d.stream (StreamRecord.unqueued (if (s.ports.get p).admits d then 0 else 1)) s.classifier.records := by
  have hrefused (f : PortCounters → PortCounters) (hf : f (s.ports.get p).count = (s.ports.get p).refusal)
      (ha : (s.ports.get p).admits d = false)
      (he : s.offer d p = ((s.onCount p f).onRecord d.stream fun r => { r with noQueue := r.noQueue + 1 }, 0)) :
      AdmissionKept s (s.offer d p).1 ∧ (s.offer d p).1.ports = s.ports.set p ((s.ports.get p).offered d) ∧
      (s.offer d p).2 = (if (s.ports.get p).admits d then 1 else 0) ∧
      (s.offer d p).1.classifier.records =
        updateRecord d.stream (StreamRecord.unqueued (if (s.ports.get p).admits d then 0 else 1)) s.classifier.records := by
    rw [he, ha, PortUnit.offered, ha, ← hf]
    exact ⟨⟨⟨rfl, rfl, rfl, rfl, rfl, rfl, rfl, rfl, rfl⟩, rfl, rfl, rfl, rfl, rfl⟩, rfl, rfl, rfl⟩
  by_cases hl : (s.ports.get p).link = true
  case neg =>
    have hl : (s.ports.get p).link = false := by simpa using hl
    refine hrefused (fun k => { k with txLinkDown := k.txLinkDown + 1 }) ?_ ?_ ?_
    · simp [PortUnit.refusal, hl]
    · simp [PortUnit.admits, hl]
    · simp [State.offer, hl]
  by_cases ha : (s.ports.get p).admin = .opened
  case neg =>
    refine hrefused (fun k => { k with txDrained := k.txDrained + 1 }) ?_ ?_ ?_
    · simp [PortUnit.refusal, hl, ha]
    · simp [PortUnit.admits, ha]
    · simp [State.offer, hl, ha]
  by_cases hq : ((s.ports.get p).queues.get d.cls).length < Config.classQueueCapacity
  case neg =>
    refine hrefused (fun k => { k with queueFull := k.queueFull + 1 }) ?_ ?_ ?_
    · simp [PortUnit.refusal, hl, ha]
    · simp [PortUnit.admits, hq]
    · simp [State.offer, hl, ha, Nat.not_lt.1 hq]
  have hadmits := PortUnit.admits_iff.2 ⟨hl, ha, hq⟩
  have he : s.offer d p =
      (if ((s.ports.get p).queues.get d.cls).isEmpty then
        (s.onPort p fun u => { u with queues := u.queues.set d.cls (u.queues.get d.cls ++ [d]) }).prompt p
      else s.onPort p fun u => { u with queues := u.queues.set d.cls (u.queues.get d.cls ++ [d]) }, 1) := by
    simp [State.offer, hl, ha, Nat.not_le.2 hq]
  rw [he, hadmits, PortUnit.offered, hadmits]
  simp only [if_true, updateRecord_unqueued_zero]
  split <;> exact ⟨⟨⟨rfl, rfl, rfl, rfl, rfl, rfl, rfl, rfl, rfl⟩, rfl, rfl, rfl, rfl, rfl⟩, rfl, trivial, rfl⟩

/-- What the offers to several ports do: each port takes its own offer, and no other port is touched (R37). -/
theorem offerAll_spec (d : Descriptor) {ps : List Port} (hps : ps.Nodup) (s : State) :
    AdmissionKept s (s.offerAll d ps).1 ∧
    (∀ q, (s.offerAll d ps).1.ports.get q = if q ∈ ps then (s.ports.get q).offered d else s.ports.get q) ∧
    (s.offerAll d ps).2 = (ps.filter fun q => (s.ports.get q).admits d).length ∧
    (s.offerAll d ps).1.classifier.records =
      updateRecord d.stream (StreamRecord.unqueued (ps.filter fun q => !(s.ports.get q).admits d).length)
        s.classifier.records := by
  induction ps generalizing s with
  | nil => exact ⟨.refl s, fun _ => rfl, rfl, (updateRecord_unqueued_zero ..).symm⟩
  | cons p ps ih =>
    obtain ⟨hp, hps⟩ := List.nodup_cons.1 hps
    obtain ⟨hkept, hports, hcount, hrecords⟩ := offer_spec s d p
    obtain ⟨ikept, iports, icount, irecords⟩ := ih hps (s.offer d p).1
    have hother (q : Port) (hq : q ∈ ps) : (s.offer d p).1.ports.get q = s.ports.get q := by
      rw [hports, PerPort.get_set, if_neg]
      rintro rfl
      exact hp hq
    have hadmits : ps.filter (fun q => ((s.offer d p).1.ports.get q).admits d) = ps.filter fun q => (s.ports.get q).admits d :=
      List.filter_congr fun q hq => by rw [hother q hq]
    have hrefuses : ps.filter (fun q => !((s.offer d p).1.ports.get q).admits d) = ps.filter fun q => !(s.ports.get q).admits d :=
      List.filter_congr fun q hq => by rw [hother q hq]
    refine ⟨hkept.trans ikept, fun q => ?_, ?_, ?_⟩
    · refine (iports q).trans ?_
      by_cases hqp : q = p
      · subst hqp
        simp [hp, hports]
      · have : (s.offer d p).1.ports.get q = s.ports.get q := by rw [hports, PerPort.get_set, if_neg hqp]
        simp [hqp, this]
    · show (s.offer d p).2 + ((s.offer d p).1.offerAll d ps).2 = _
      rw [hcount, icount, hadmits, List.filter_cons]
      split <;> simp [Nat.add_comm]
    · show ((s.offer d p).1.offerAll d ps).1.classifier.records = _
      rw [irecords, hrecords, updateRecord_unqueued_add, hrefuses, List.filter_cons]
      cases (s.ports.get p).admits d <;> simp [Nat.add_comm]

theorem portsOf_nodup (x : PerPort Bool) : (portsOf x).Nodup := List.Nodup.filter _ (by decide)

theorem mem_portsOf {x : PerPort Bool} {p : Port} : p ∈ portsOf x ↔ x.get p = true := by
  simp [portsOf, Port.mem_all]

/-- The ports of an egress set that take a descriptor. -/
def State.admitting (s : State) (e : StreamEntry) (d : Descriptor) : List Port :=
  (portsOf e.egress).filter fun q => (s.ports.get q).admits d

/-- The descriptor an accepted frame gets at this instant (R38). -/
def State.frameDescriptor (s : State) (e : StreamEntry) (payload : List Byte) : Descriptor :=
  descriptorOf e s.store.freshRef payload.length s.clock.number

/-- What the acceptance of a frame does (R35, R37 to R39). -/
theorem acceptFrame_spec (s : State) (e : StreamEntry) (h : Header) (payload : List Byte) (held : Nat) :
    Kept s (s.acceptFrame e h payload held) ∧
    (s.acceptFrame e h payload held).own = s.own ∧ (s.acceptFrame e h payload held).control = s.control ∧
    (s.acceptFrame e h payload held).events = s.events ∧
    (∀ q, (s.acceptFrame e h payload held).ports.get q =
      if e.egress.get q then (s.ports.get q).offered (s.frameDescriptor e payload) else s.ports.get q) ∧
    (s.acceptFrame e h payload held).classifier.records =
      updateRecord e.stream
        (StreamRecord.unqueued ((portsOf e.egress).filter fun q => !(s.ports.get q).admits (s.frameDescriptor e payload)).length)
        (updateRecord e.stream (fun r => { r with received := r.received + 1 }) s.classifier.records) ∧
    (s.acceptFrame e h payload held).classifier.unknownMarks = s.classifier.unknownMarks ∧
    (s.acceptFrame e h payload held).store =
      if (s.admitting e (s.frameDescriptor e payload)) = [] then { s.store with free := s.store.free + held }
      else
        { s.store with
          frames := s.store.frames ++
            [{ ref := s.store.freshRef, bytes := headerBytes (lowerHop h) ++ payload, blocks := held,
               count := (s.admitting e (s.frameDescriptor e payload)).length }] } := by
  obtain ⟨hkept, hports, hcount, hrecords⟩ := offerAll_spec (s.frameDescriptor e payload) (portsOf_nodup e.egress)
    (s.onRecord e.stream fun r => { r with received := r.received + 1 })
  generalize ho : (s.onRecord e.stream fun r => { r with received := r.received + 1 }).offerAll (s.frameDescriptor e payload)
    (portsOf e.egress) = o at hkept hports hcount hrecords
  have hk := (onRecord_kept s e.stream fun r => { r with received := r.received + 1 }).trans hkept.toKept
  have hports' (q : Port) := (hports q).trans (if_congr (mem_portsOf (x := e.egress)) rfl rfl)
  have hcount : o.2 = (s.admitting e (s.frameDescriptor e payload)).length := hcount
  have heq : s.acceptFrame e h payload held =
      if o.2 = 0 then o.1.returnBlocks held
      else
        o.1.setStore
          { o.1.store with
            frames := o.1.store.frames ++
              [{ ref := s.store.freshRef, bytes := headerBytes (lowerHop h) ++ payload, blocks := held, count := o.2 }] } := by
    rw [← ho]
    rfl
  rw [heq, hcount]
  by_cases ha : s.admitting e (s.frameDescriptor e payload) = []
  · rw [if_pos (by rw [ha]; rfl), if_pos ha]
    exact ⟨hk.trans (returnBlocks_kept ..), hkept.own, hkept.control, hkept.events, hports', hrecords, hkept.unknownMarks, by
      rw [State.returnBlocks, State.setStore_store, hkept.store]; rfl⟩
  · rw [if_neg (by rwa [List.length_eq_zero_iff]), if_neg ha]
    exact ⟨hk.trans (setStore_kept ..), hkept.own, hkept.control, hkept.events, hports', hrecords, hkept.unknownMarks, by
      rw [State.setStore_store, hkept.store]; rfl⟩

end Sys2Proof.Machine
end

section
/-! The standing condition on the run-time records (R24, R25), and the configurations with them. -/

namespace Sys2Proof.Machine

open Sys2Proof

/-- The records are those of the entries of a table that lists each stream once, and no budget remaining exceeds its budget (R24, R25). -/
structure RecordsOk (c : Configuration) (rs : List StreamRecord) : Prop where
  distinct : (c.streams.map (·.stream)).Nodup
  streams : rs.map (·.stream) = c.streams.map (·.stream)
  budgets : ∀ r ∈ rs, ∀ e, streamEntry c r.stream = some e → r.budgetRemaining ≤ e.budget

theorem Configuration.Ok.distinct {c : Configuration} (h : c.Ok) : (c.streams.map (·.stream)).Nodup := by
  obtain ⟨-, hlisted, -⟩ := h
  refine List.Pairwise.map _ (fun a b hab => ?_) hlisted
  rintro he
  rw [he] at hab
  omega

/-- In a table that lists each stream once, an entry is the one its number finds. -/
theorem streamEntry_of_mem {c : Configuration} (h : (c.streams.map (·.stream)).Nodup) {e : StreamEntry} (he : e ∈ c.streams) :
    streamEntry c e.stream = some e := by
  unfold streamEntry
  generalize c.streams = l at *
  induction l with
  | nil => cases he
  | cons x xs ih =>
    obtain ⟨hx, hxs⟩ := List.nodup_cons.1 h
    rcases List.mem_cons.1 he with rfl | he
    · simp
    · have hne : x.stream ≠ e.stream := fun heq => hx (List.mem_map.2 ⟨e, he, heq.symm⟩)
      rw [List.find?_cons_of_neg (by simpa using hne)]
      exact ih hxs he

namespace RecordsOk

variable {c : Configuration} {rs : List StreamRecord}

theorem map (h : RecordsOk c rs) {f : StreamRecord → StreamRecord} (hf : RecordChange f) : RecordsOk c (rs.map f) := by
  refine ⟨h.distinct, ?_, fun r hr e he => ?_⟩
  · rw [← h.streams, List.map_map]
    exact List.map_congr_left fun r _ => (hf r).1
  · obtain ⟨x, hx, rfl⟩ := List.mem_map.1 hr
    rw [(hf x).1] at he
    exact (hf x).2.trans (h.budgets x hx e he)

theorem update (h : RecordsOk c rs) (n : StreamNo) {f : StreamRecord → StreamRecord} (hf : RecordChange f) :
    RecordsOk c (updateRecord n f rs) := by
  refine h.map fun r => ?_
  split
  · exact hf r
  · exact ⟨rfl, Nat.le_refl _⟩

/-- The records of a warm restart, fresh for each entry (R28). -/
theorem fresh (h : (c.streams.map (·.stream)).Nodup) : RecordsOk c (c.streams.map freshRecord) := by
  refine ⟨h, by simp [freshRecord, Function.comp_def], fun r hr e he => ?_⟩
  obtain ⟨x, hx, rfl⟩ := List.mem_map.1 hr
  have hxe := streamEntry_of_mem h hx
  rw [show (freshRecord x).stream = x.stream from rfl, hxe] at he
  cases he
  exact Nat.le_refl _

/-- Refilled budgets are those of the entries, whatever was left of them (R25). -/
theorem refill (hd : (c.streams.map (·.stream)).Nodup) (hs : rs.map (·.stream) = c.streams.map (·.stream)) :
    RecordsOk c (refill c rs) := by
  refine ⟨hd, ?_, fun r hr e he => ?_⟩
  · rw [← hs, Machine.refill, List.map_map]
    rfl
  · obtain ⟨x, -, rfl⟩ := List.mem_map.1 hr
    have he : streamEntry c x.stream = some e := he
    simp [he]

end RecordsOk

theorem rebuildRecords_streams (old : List StreamRecord) (c : Configuration) :
    (rebuildRecords old c).map (·.stream) = c.streams.map (·.stream) := by
  rw [rebuildRecords, List.map_map]
  refine List.map_congr_left fun e _ => ?_
  cases h : streamRecord old e.stream with
  | none => simp [h, freshRecord]
  | some r => simpa [h] using List.find?_some h

/-- The records of the active table. -/
def State.RecordsHold (s : State) : Prop := RecordsOk s.cfg.active s.classifier.records

theorem recordsHold_same {s t : State} (ha : t.cfg.active = s.cfg.active) (hr : t.classifier.records = s.classifier.records)
    (h : s.RecordsHold) : t.RecordsHold := by
  unfold State.RecordsHold at *
  rwa [ha, hr]

theorem RecordChange.unqueued (n : Nat) : RecordChange (StreamRecord.unqueued n) := fun _ => ⟨rfl, Nat.le_refl _⟩

theorem recordsHold_acceptFrame {s : State} (e : StreamEntry) (h : Header) (payload : List Byte) (held : Nat) (hs : s.RecordsHold) :
    (s.acceptFrame e h payload held).RecordsHold := by
  obtain ⟨hk, -, -, -, -, hr, -⟩ := acceptFrame_spec s e h payload held
  unfold State.RecordsHold
  rw [hk.cfg, hr]
  exact (RecordsOk.update hs e.stream (f := fun r => { r with received := r.received + 1 }) fun _ => ⟨rfl, Nat.le_refl _⟩).update _ (.unqueued _)

theorem offerSync_rest (s : State) (p : Port) : (s.offerSync p).cfg = s.cfg ∧ (s.offerSync p).classifier = s.classifier ∧
    (s.offerSync p).events = s.events ∧ (s.offerSync p).own = s.own ∧ (s.offerSync p).store = s.store := by
  unfold State.offerSync
  dsimp only
  split
  · split <;> exact ⟨rfl, rfl, rfl, rfl, rfl⟩
  · exact ⟨rfl, rfl, rfl, rfl, rfl⟩

theorem retransmit_rest (s : State) : s.retransmit.ports = s.ports ∧ s.retransmit.classifier = s.classifier ∧
    s.retransmit.store = s.store ∧ s.retransmit.cfg = s.cfg := by
  unfold State.retransmit
  split
  · split
    · obtain ⟨-, hports, hstore, -, -, hclassifier⟩ := appendOwn_rest (s.setEvents _) _
      exact ⟨hports, hclassifier, hstore, (appendOwn_kept ..).cfg⟩
    · exact ⟨rfl, rfl, rfl, rfl⟩
  · exact ⟨rfl, rfl, rfl, rfl⟩

theorem buildReport_rest (s : State) : s.buildReport.ports = s.ports ∧ s.buildReport.classifier = s.classifier ∧
    s.buildReport.store = s.store ∧ s.buildReport.cfg = s.cfg := by
  unfold State.buildReport
  split
  · exact ⟨rfl, rfl, rfl, rfl⟩
  · split
    · obtain ⟨-, hports, hstore, -, -, hclassifier⟩ := appendOwn_rest (s.setEvents _) _
      exact ⟨hports, hclassifier, hstore, (appendOwn_kept ..).cfg⟩
    · exact ⟨rfl, rfl, rfl, rfl⟩

/-- The records stay those of the active table through every operation of a step but a natural cycle start. -/
theorem recordsHold_closed : WorkClosed fun _ _ s => s.RecordsHold where
  same hw := recordsHold_same hw.active (by rw [hw.classifier])
  advance _ := recordsHold_same rfl rfl
  count _ _ := recordsHold_same rfl rfl
  records _ hf h := RecordsOk.map h hf
  marks _ := recordsHold_same rfl rfl
  raiseAt _ _ _ _ _ _ := recordsHold_same rfl rfl
  poolMark _ := recordsHold_same rfl rfl
  withSink _ := recordsHold_same rfl rfl
  reportDue _ _ := recordsHold_same rfl rfl
  acknowledge _ := recordsHold_same rfl rfl
  queueOverflow := recordsHold_same rfl rfl
  retransmit {_ _ s} := recordsHold_same (by rw [(retransmit_rest s).2.2.2]) (by rw [(retransmit_rest s).2.1])
  buildReport {_ _ s} := recordsHold_same (by rw [(buildReport_rest s).2.2.2]) (by rw [(buildReport_rest s).2.1])
  appendOwn {_ _ s} f _ := by
    obtain ⟨-, -, -, -, -, hc⟩ := appendOwn_rest s f
    exact recordsHold_same (by rw [(appendOwn_kept s f).cfg]) (by rw [hc])
  clearOwn := recordsHold_same rfl rfl
  dequeue _ _ _ _ _ := recordsHold_same rfl rfl
  release _ := recordsHold_same rfl rfl
  startData _ _ _ _ _ _ _ := recordsHold_same rfl rfl
  startOwn _ _ _ _ _ := recordsHold_same rfl rfl
  offerSync {_ _ s} p := by
    obtain ⟨hcfg, hclassifier, -⟩ := offerSync_rest s p
    exact recordsHold_same (by rw [hcfg]) (by rw [hclassifier])
  endTx _ := recordsHold_same rfl rfl
  accept e h payload held hs := recordsHold_acceptFrame e h payload held hs
  receive _ _ _ _ _ := recordsHold_same rfl rfl
  claim _ _ _ _ := recordsHold_same rfl rfl
  endRx _ := recordsHold_same rfl rfl
  endUnstored _ _ := recordsHold_same rfl rfl
  returnBlocks _ := recordsHold_same rfl rfl
  setAdmin _ _ _ _ _ := recordsHold_same rfl rfl
  linkUp _ := recordsHold_same rfl rfl
  linkDown _ _ _ _ := recordsHold_same rfl rfl
  warmRestart h := RecordsOk.fresh h.distinct
  reset := recordsHold_same rfl rfl

/-- Across a swap the records are rebuilt for the new table, and the refill that follows sets every budget (R25, R27). -/
theorem recordsHold_cycleStart {s : State} (hstaged : s.cfg.staged.Ok) (h : s.RecordsHold) : s.cycleStart.RecordsHold := by
  refine recordsHold_closed.cycleStart (s := s) (fun _ => ?_) h
  have hturned : (s.turned.cfg.active.streams.map (·.stream)).Nodup ∧
      s.turned.classifier.records.map (·.stream) = s.turned.cfg.active.streams.map (·.stream) := by
    unfold State.turned
    split
    · exact ⟨hstaged.distinct, rebuildRecords_streams ..⟩
    · exact ⟨h.distinct, h.streams⟩
  exact RecordsOk.refill hturned.1 hturned.2

theorem recordInv_iff {s : State} (h : s.cfg.active.Ok) : s.RecordInv ↔ s.RecordsHold :=
  ⟨fun ⟨hs, hb⟩ => ⟨h.distinct, hs, hb⟩, fun ⟨_, hs, hb⟩ => ⟨hs, hb⟩⟩

/-- Settles O55: the configurations by the operations on the gate-wide state, the records by the operations on ports, queues and records, where a
natural cycle start needs the staged copy within its limits. -/
theorem everyStepKeepsConfigurationAndRecords : Obligations.EveryStepKeepsConfigurationAndRecords := by
  have hconfig : KeptByStep State.ConfigInv := configInv_closed.step fun _ _ => configInv_same rfl rfl
  refine ⟨hconfig, fun s t h hstep => ?_⟩
  obtain ⟨hc, hr⟩ := h
  have ht := hconfig s t hc hstep
  refine ⟨ht, (recordInv_iff ht.1).2 ?_⟩
  exact recordsHold_closed.step (fun _ _ _ _ => ⟨List.nodup_nil, rfl, fun _ hr => nomatch hr⟩)
    (fun _ => recordsHold_cycleStart hc.2.1) ((recordInv_iff hc.1).1 hr) hstep

end Sys2Proof.Machine
end

section
/-! What changes the active configuration (R43, R44): a release of RESET_N, and a natural cycle start that a due commit reaches. -/

namespace Sys2Proof.Machine

open Sys2Proof

/-- A state's active configuration and generation. -/
def State.activeGeneration (s : State) : Configuration × Half := (s.cfg.active, s.cfg.generation)

theorem activeGeneration_of_cfg {s t : State} (h : t.cfg = s.cfg) : t.activeGeneration = s.activeGeneration := by
  rw [State.activeGeneration, h]
  rfl

/-- Every operation of a step but a natural cycle start leaves the active configuration and the generation. -/
theorem activeGeneration_closed (x : Configuration × Half) : WorkClosed fun _ _ s => s.activeGeneration = x where
  same hw h := by rw [← h, State.activeGeneration, hw.active, hw.generation]; rfl
  advance _ h := h
  count _ _ h := h
  records _ _ h := h
  marks _ h := h
  raiseAt _ _ _ _ _ _ h := h
  poolMark _ h := h
  withSink _ h := h
  reportDue _ _ h := h
  acknowledge _ h := h
  queueOverflow h := h
  retransmit {_ _ s} h := (activeGeneration_of_cfg (retransmit_rest s).2.2.2).trans h
  buildReport {_ _ s} h := (activeGeneration_of_cfg (buildReport_rest s).2.2.2).trans h
  appendOwn f _ h := (activeGeneration_of_cfg (appendOwn_kept _ f).cfg).trans h
  clearOwn h := h
  dequeue _ _ _ _ _ h := h
  release _ h := h
  startData _ _ _ _ _ _ _ h := h
  startOwn _ _ _ _ _ h := h
  offerSync p h := (activeGeneration_of_cfg (offerSync_rest _ p).1).trans h
  endTx _ h := h
  accept e r payload held h := (activeGeneration_of_cfg (acceptFrame_spec _ e r payload held).1.cfg).trans h
  receive _ _ _ _ _ h := h
  claim _ _ _ _ h := h
  endRx _ h := h
  endUnstored _ _ h := h
  returnBlocks _ h := h
  setAdmin _ _ _ _ _ h := h
  linkUp _ h := h
  linkDown _ _ _ _ h := h
  warmRestart h := h
  reset h := h

/-- A natural cycle start at which no commit is due leaves the configuration unit. -/
theorem cycleStart_cfg_of_not_due {s : State} (h : swapDue s.cfg (s.clock.number + 1) ≠ true) : s.cycleStart.cfg = s.cfg := by
  rw [cycleStart_cfg, ConfigUnit.atStart, if_neg h]

/-- Settles O60: `activeGeneration_closed`, and at a natural cycle start that no commit reaches `cycleStart_cfg_of_not_due`. -/
theorem onlyASwapChangesTheActiveConfiguration : Obligations.OnlyASwapChangesTheActiveConfiguration := by
  intro c s t he hrelease
  by_cases hswap : (c = .naturalCycleStart ∨ c = .swap) ∧ swapDue s.cfg (s.clock.number + 1) = true
  · exact .inr hswap
  · refine .inl (Prod.mk.inj (?_ : t.activeGeneration = s.activeGeneration))
    refine (activeGeneration_closed s.activeGeneration).exec he (fun hc h => ?_) (fun a b l hr => absurd hr (hrelease a b l)) rfl
    have hdue : swapDue s.cfg (s.clock.number + 1) ≠ true := fun hd => hswap ⟨hc, hd⟩
    exact (activeGeneration_of_cfg (cycleStart_cfg_of_not_due (s := s.runTo s.clock.cycleEnd) hdue)).trans h

end Sys2Proof.Machine
end

section
/-! Conditions that read one port at a time: what a step can do to a port, said once, and the conditions on links, drains and class queues. -/

namespace Sys2Proof.Machine

open Sys2Proof

/-- The operations through which a step changes a port. -/
structure PortsClosed (Q : Port → PortUnit → Prop) : Prop where
  elapse : ∀ {p u} n, Q p u → Q p (u.elapse n)
  count : ∀ {p u} k, Q p u → Q p { u with count := k }
  dequeue : ∀ {p u} q, (∀ c, List.Sublist (q.get c) (u.queues.get c)) → Q p u → Q p { u with queues := q }
  offered : ∀ {p u} d, Q p u → Q p (u.offered d)
  transmit : ∀ {p u} x, u.link = true ∨ x = .idle → Q p u → Q p { u with tx := x }
  receive : ∀ {p u} r, u.link = true ∨ u.rx.state ≠ .idle ∨ r.state = .idle → Q p u → Q p { u with rx := r }
  setAdmin : ∀ {p u} a r, (a = .draining ↔ Option.isSome r = true) → (p = .t → u.admin = .opened → a = .opened) → Q p u →
    Q p { u with admin := a, drain := r }
  linkUp : ∀ {p u}, Q p u → Q p { u with link := true }
  linkDown : ∀ {p u}, u.rx.state = .idle → u.tx = .idle → (∀ c, u.queues.get c = []) → Q p u → Q p { u with link := false }
  warm : ∀ {p u}, Q p u → Q p u.warm
  powerOn : ∀ p l, Q p (PortUnit.powerOn l)

/-- A condition at every port. -/
def State.PortsMeet (Q : Port → PortUnit → Prop) (s : State) : Prop := ∀ p, Q p (s.ports.get p)

section
variable {Q : Port → PortUnit → Prop}

theorem portsMeet_same {s t : State} (h : t.ports = s.ports) (hs : s.PortsMeet Q) : t.PortsMeet Q := fun p => by
  rw [h]
  exact hs p

/-- A change at one port. -/
theorem portsMeet_onPort {s : State} (p : Port) {f : PortUnit → PortUnit} (hf : Q p (s.ports.get p) → Q p (f (s.ports.get p)))
    (h : s.PortsMeet Q) : (s.onPort p f).PortsMeet Q := fun q => by
  rw [State.onPort_ports, PerPort.get_set]
  split
  · next hq => exact hq ▸ hf (h p)
  · exact h q

theorem portsMeet_map {s t : State} {f : PortUnit → PortUnit} (ht : t.ports = s.ports.map f) (hf : ∀ {p u}, Q p u → Q p (f u))
    (h : s.PortsMeet Q) : t.PortsMeet Q := fun p => by
  rw [ht, PerPort.get_map]
  exact hf (h p)

variable (hQ : PortsClosed Q)
include hQ

theorem PortsClosed.offerSync {s : State} (p : Port) (h : s.PortsMeet Q) : (s.offerSync p).PortsMeet Q := by
  unfold State.offerSync
  dsimp only
  split
  · next hc =>
    split
    · exact portsMeet_onPort p (hQ.transmit _ (.inl hc.1)) h
    · exact portsMeet_onPort p (hQ.count _) h
  · exact h

theorem PortsClosed.acceptFrame {s : State} (e : StreamEntry) (x : Header) (payload : List Byte) (held : Nat) (h : s.PortsMeet Q) :
    (s.acceptFrame e x payload held).PortsMeet Q := fun q => by
  obtain ⟨-, -, -, -, hports, -⟩ := acceptFrame_spec s e x payload held
  rw [hports q]
  split
  · exact hQ.offered _ (h q)
  · exact h q

/-- A condition at every port that its operations keep is kept by the operations of a step. -/
theorem PortsClosed.work : WorkClosed fun _ _ s => s.PortsMeet Q where
  same hw := portsMeet_same hw.ports
  advance n := portsMeet_map rfl (hQ.elapse n)
  count p _ := portsMeet_onPort p (hQ.count _)
  records _ _ := portsMeet_same rfl
  marks _ := portsMeet_same rfl
  raiseAt _ _ _ _ _ _ := portsMeet_same rfl
  poolMark _ := portsMeet_same rfl
  withSink _ := portsMeet_same rfl
  reportDue _ _ := portsMeet_same rfl
  acknowledge _ := portsMeet_same rfl
  queueOverflow := portsMeet_same rfl
  retransmit {_ _ s} := portsMeet_same (retransmit_rest s).1
  buildReport {_ _ s} := portsMeet_same (buildReport_rest s).1
  appendOwn {_ _ s} f _ := portsMeet_same (appendOwn_rest s f).2.1
  clearOwn := portsMeet_same rfl
  dequeue p q _ hsub _ := portsMeet_onPort p (hQ.dequeue q hsub)
  release _ := portsMeet_same rfl
  startData {_ _ s} p c d rest _ hl hq h :=
    have hsub : List.Sublist rest ((s.ports.get p).queues.get c) := hq ▸ List.sublist_cons_self d rest
    portsMeet_onPort p (fun hu => hQ.transmit (u := { s.ports.get p with queues := (s.ports.get p).queues.set c rest }) _ (.inl hl)
      (hQ.dequeue _ (Quad.set_sublist hsub) hu)) h
  startOwn {_ _ s} f rest _ hl _ h := portsMeet_onPort (s := s.setOwn rest) .t (hQ.transmit _ (.inl hl)) h
  offerSync p := hQ.offerSync p
  endTx p := portsMeet_onPort p (hQ.transmit _ (.inr rfl))
  accept e x payload held := hQ.acceptFrame e x payload held
  receive p r hl _ _ := portsMeet_onPort p (hQ.receive r (hl.imp_right .inl))
  claim {_ _ s} p need hx _ h := portsMeet_onPort (s := s.setStore { s.store with free := s.store.free - need }) p
    (hQ.receive _ (.inr (.inl (show (s.ports.get p).rx.state ≠ .idle by simp [hx])))) h
  endRx p := portsMeet_onPort p (hQ.receive _ (.inr (.inr rfl)))
  endUnstored p _ := portsMeet_onPort p (hQ.receive _ (.inr (.inr rfl)))
  returnBlocks _ := portsMeet_same rfl
  setAdmin p a r ha ht := portsMeet_onPort p (hQ.setAdmin a r ha ht)
  linkUp p := portsMeet_onPort p hQ.linkUp
  linkDown p hx ht hq := portsMeet_onPort p (hQ.linkDown hx ht hq)
  warmRestart := portsMeet_map rfl hQ.warm
  reset := portsMeet_same rfl

theorem PortsClosed.step : KeptByStep (State.PortsMeet Q) := fun s t hs he => by
  refine hQ.work.step (fun a b l q p => ?_) (fun q => ?_) hs he
  · show Q p ((l.map PortUnit.powerOn).get p)
    rw [PerPort.get_map]
    exact hQ.powerOn p _
  · exact hQ.work.cycleStart_of_swap (portsMeet_same rfl) fun _ => portsMeet_same rfl

end

/-! ### Class queues (R69) -/

/-- No class queue of a port holds more than 32 descriptors, and each its own class (R69). -/
def PortUnit.QueuesOk (u : PortUnit) : Prop :=
  ∀ c, (u.queues.get c).length ≤ Config.classQueueCapacity ∧ ∀ d ∈ u.queues.get c, d.cls = c

theorem queuesOk_same {u v : PortUnit} (h : v.queues = u.queues) (hu : u.QueuesOk) : v.QueuesOk := by
  unfold PortUnit.QueuesOk at *
  rwa [h]

theorem queuesOk_empty {u : PortUnit} (h : u.queues = Quad.fill []) : u.QueuesOk := fun c => by
  rw [h, Quad.get_fill]
  exact ⟨Nat.zero_le _, fun _ hd => nomatch hd⟩

theorem PortUnit.QueuesOk.offered {u : PortUnit} (d : Descriptor) (h : u.QueuesOk) : (u.offered d).QueuesOk := by
  unfold PortUnit.offered
  split
  · next ha =>
    obtain ⟨-, -, hroom⟩ := PortUnit.admits_iff.1 ha
    intro c
    dsimp only
    rw [Quad.get_set]
    split
    · next hc =>
      subst hc
      refine ⟨?_, fun x hx => ?_⟩
      · rw [List.length_append]
        exact hroom
      · rcases List.mem_append.1 hx with hx | hx
        · exact (h d.cls).2 x hx
        · rw [List.mem_singleton.1 hx]
    · exact h c
  · exact queuesOk_same rfl h

theorem queuesOk_closed : PortsClosed fun _ u => u.QueuesOk where
  elapse _ := queuesOk_same rfl
  count _ := queuesOk_same rfl
  dequeue _ hsub h c := ⟨(hsub c).length_le.trans (h c).1, fun d hd => (h c).2 d ((hsub c).subset hd)⟩
  offered d := PortUnit.QueuesOk.offered d
  transmit _ _ := queuesOk_same rfl
  receive _ _ := queuesOk_same rfl
  setAdmin _ _ _ _ := queuesOk_same rfl
  linkUp := queuesOk_same rfl
  linkDown _ _ _ := queuesOk_same rfl
  warm _ := queuesOk_empty rfl
  powerOn _ _ := queuesOk_empty rfl

/-! ### Links (R117, R122) -/

/-- A port that is DOWN receives nothing, sends nothing and queues no data frame (R117, R122). -/
def PortUnit.LinkOk (u : PortUnit) : Prop :=
  u.link = false → u.rx.state = .idle ∧ u.tx = .idle ∧ ∀ c, u.queues.get c = []

theorem linkOk_of_up {u : PortUnit} (h : u.link = true) : u.LinkOk := fun hd => absurd (h.symm.trans hd) (by decide)

theorem linkOk_same {u v : PortUnit} (hl : v.link = u.link) (hx : v.rx.state = u.rx.state) (ht : v.tx = u.tx)
    (hq : v.queues = u.queues) (h : u.LinkOk) : v.LinkOk := by
  unfold PortUnit.LinkOk at *
  rwa [hl, hx, ht, hq]

theorem PortUnit.LinkOk.offered {u : PortUnit} (d : Descriptor) (h : u.LinkOk) : (u.offered d).LinkOk := by
  unfold PortUnit.offered
  split
  · next ha => exact linkOk_of_up (PortUnit.admits_iff.1 ha).1
  · exact linkOk_same rfl rfl rfl rfl h

theorem linkOk_closed : PortsClosed fun _ u => u.LinkOk where
  elapse n h hd := by
    obtain ⟨hx, ht, hq⟩ := h hd
    refine ⟨(Reception.elapse_state ..).trans hx, ?_, hq⟩
    simp only [PortUnit.elapse, ht]
    rfl
  count _ := linkOk_same rfl rfl rfl rfl
  dequeue _ hsub h hd := by
    obtain ⟨hx, ht, hq⟩ := h hd
    exact ⟨hx, ht, fun c => List.sublist_nil.1 (hq c ▸ hsub c)⟩
  offered d := PortUnit.LinkOk.offered d
  transmit _ hc h hd := by
    obtain ⟨hx, -, hq⟩ := h hd
    rcases hc with hu | hi
    · exact absurd (hu.symm.trans hd) (by decide)
    · exact ⟨hx, hi, hq⟩
  receive _ hc h hd := by
    obtain ⟨hx, ht, hq⟩ := h hd
    rcases hc with hu | hn | hi
    · exact absurd (hu.symm.trans hd) (by decide)
    · exact absurd hx hn
    · exact ⟨hi, ht, hq⟩
  setAdmin _ _ _ _ := linkOk_same rfl rfl rfl rfl
  linkUp _ := linkOk_of_up rfl
  linkDown hx ht hq _ _ := ⟨hx, ht, hq⟩
  warm _ _ := ⟨rfl, rfl, fun c => Quad.get_fill ..⟩
  powerOn _ _ _ := ⟨rfl, rfl, fun c => Quad.get_fill ..⟩

theorem linkInv_iff {s : State} : s.LinkInv ↔ s.PortsMeet fun _ u => u.LinkOk := by
  refine forall_congr' fun p => imp_congr_right fun _ => and_congr_right fun _ => and_congr (isIdle_iff _) ?_
  rw [queuesEmpty_iff]

/-! ### Drains (R121) -/

/-- T is OPEN, and a drain record is there exactly while DRAINING (R121). -/
def PortUnit.DrainOk (p : Port) (u : PortUnit) : Prop :=
  (p = .t → u.admin = .opened) ∧ (u.admin = .draining ↔ u.drain.isSome = true)

theorem drainOk_same {p : Port} {u v : PortUnit} (ha : v.admin = u.admin) (hd : v.drain = u.drain) (h : u.DrainOk p) :
    v.DrainOk p := by
  unfold PortUnit.DrainOk at *
  rwa [ha, hd]

theorem drainOk_opened {p : Port} {u : PortUnit} (ha : u.admin = .opened) (hd : u.drain = none) : u.DrainOk p :=
  ⟨fun _ => ha, by simp [ha, hd]⟩

theorem drainOk_closed : PortsClosed fun p u => u.DrainOk p where
  elapse _ := drainOk_same rfl rfl
  count _ := drainOk_same rfl rfl
  dequeue _ _ := drainOk_same rfl rfl
  offered {p u} d := by
    unfold PortUnit.offered
    split <;> exact drainOk_same rfl rfl
  transmit _ _ := drainOk_same rfl rfl
  receive _ _ := drainOk_same rfl rfl
  setAdmin _ _ ha ht h := ⟨fun hp => ht hp (h.1 hp), ha⟩
  linkUp := drainOk_same rfl rfl
  linkDown _ _ _ := drainOk_same rfl rfl
  warm _ := drainOk_opened rfl rfl
  powerOn _ _ := drainOk_opened rfl rfl

end Sys2Proof.Machine
end

section
/-! Conditions that read the event unit alone: what a step can do to it, said once, and the conditions on its queue and its report. -/

namespace Sys2Proof.Machine

open Sys2Proof

/-- The operations through which a step changes the event unit. -/
structure EventsClosed (E : EventUnit → Prop) : Prop where
  raise : ∀ {e} k p x c d, k ≠ NoticeKind.overflow → E e → E (e.raise k p x c d)
  tick : ∀ {e} f, E e → E { e with timer := e.timer.map f }
  poolMark : ∀ {e} m, E e → E { e with poolMark := m }
  withSink : ∀ {e} x, E e → E (e.withSink x)
  reportDue : ∀ {e r}, e.report = some r → r.sends < 4 → E e → E { e with timer := none, report := some { r with due := true } }
  acknowledge : ∀ {e} k, E e → E (e.acknowledge k)
  queueOverflow : ∀ {e} c, E e → E (e.queueOverflow c)
  retransmitted : ∀ {e r} n, e.sink.isSome = true → e.report = some r → r.due = true → E e →
    E { e with report := some { sends := r.sends + 1, due := false }, timer := some n }
  built : ∀ {e} n, e.sink.isSome = true → e.report = none → unsentNotices e.queue ≠ [] → E e →
    E { e with queue := markSent Config.reportNotices e.queue, report := some { sends := 1, due := false }, timer := some n }
  powerOn : E EventUnit.powerOn

section
variable {E : EventUnit → Prop} (hE : EventsClosed E)
include hE

theorem EventsClosed.retransmit {s : State} (h : E s.events) : E s.retransmit.events := by
  unfold State.retransmit
  split
  · next hs hr =>
    split
    · next hc =>
      rw [(appendOwn_rest ..).2.2.2.1]
      exact hE.retransmitted _ (by rw [hs]; rfl) hr hc.1 h
    · exact h
  · exact h

theorem EventsClosed.buildReport {s : State} (h : E s.events) : E s.buildReport.events := by
  unfold State.buildReport
  split
  · exact h
  · next hs =>
    split
    · next hc =>
      rw [(appendOwn_rest ..).2.2.2.1]
      exact hE.built _ (by rw [hs]; rfl) hc.1 hc.2.1 h
    · exact h

/-- A condition on the event unit that its operations keep is kept by the operations of a step. -/
theorem EventsClosed.work : WorkClosed fun _ _ s => E s.events where
  same hw h := by rwa [hw.events]
  advance _ h := hE.tick _ h
  count _ _ h := h
  records _ _ h := h
  marks _ h := h
  raiseAt k p x c d hk h := hE.raise k p x c d hk h
  poolMark m h := hE.poolMark m h
  withSink x h := hE.withSink x h
  reportDue hr hs h := hE.reportDue hr hs h
  acknowledge k h := hE.acknowledge k h
  queueOverflow h := hE.queueOverflow _ h
  retransmit h := hE.retransmit h
  buildReport h := hE.buildReport h
  appendOwn {_ _ s} f _ h := by rwa [(appendOwn_rest s f).2.2.2.1]
  clearOwn h := h
  dequeue _ _ _ _ _ h := h
  release _ h := h
  startData _ _ _ _ _ _ _ h := h
  startOwn _ _ _ _ _ h := h
  offerSync {_ _ s} p h := by rwa [(offerSync_rest s p).2.2.1]
  endTx _ h := h
  accept {s} e x payload held h := by rwa [(acceptFrame_spec s e x payload held).2.2.2.1]
  receive _ _ _ _ _ h := h
  claim _ _ _ _ h := h
  endRx _ h := h
  endUnstored _ _ h := h
  returnBlocks _ h := h
  setAdmin _ _ _ _ _ h := h
  linkUp _ h := h
  linkDown _ _ _ _ h := h
  warmRestart _ := hE.raise _ _ _ _ _ (by decide) hE.powerOn
  reset h := h

theorem EventsClosed.step : KeptByStep fun s => E s.events := by
  intro s t hs he
  refine hE.work.step (fun _ _ _ _ => hE.powerOn) (fun q => ?_) hs he
  refine hE.work.cycleStart_of_swap (fun h => ?_) fun _ h => h
  exact hE.raise .commitDone none none _ _ (by decide) h

end

/-! ### The capacity of the event queue (R151) -/

/-- The OVERFLOW notices of a queue. -/
def overflowCount (q : List QueuedNotice) : Nat := (q.filter fun x => x.notice.kind = .overflow).length

theorem ordinaryCount_add_overflowCount (q : List QueuedNotice) : ordinaryCount q + overflowCount q = q.length := by
  have := List.length_eq_length_filter_add (l := q) fun x => decide (x.notice.kind ≠ .overflow)
  simpa [ordinaryCount, overflowCount] using this.symm

theorem ordinaryCount_append (q r : List QueuedNotice) : ordinaryCount (q ++ r) = ordinaryCount q + ordinaryCount r := by
  simp [ordinaryCount]

theorem overflowCount_append (q r : List QueuedNotice) : overflowCount (q ++ r) = overflowCount q + overflowCount r := by
  simp [overflowCount]

/-- A queue within its capacity: 31 ordinary notices and one OVERFLOW (R151). -/
def QueueRoom (q : List QueuedNotice) : Prop := ordinaryCount q ≤ Config.ordinaryNotices ∧ overflowCount q ≤ 1

theorem queueRoom_iff {q : List QueuedNotice} :
    QueueRoom q ↔ ordinaryCount q ≤ Config.ordinaryNotices ∧ q.length ≤ ordinaryCount q + 1 := by
  have := ordinaryCount_add_overflowCount q
  unfold QueueRoom
  omega

theorem QueueRoom.sublist {q r : List QueuedNotice} (h : QueueRoom q) (hs : List.Sublist r q) : QueueRoom r :=
  ⟨((hs.filter _).length_le).trans h.1, ((hs.filter _).length_le).trans h.2⟩

/-- The capacity does not read which notices are SENT. -/
theorem QueueRoom.of_notices {q r : List QueuedNotice} (hn : r.map (·.notice) = q.map (·.notice)) (h : QueueRoom q) : QueueRoom r := by
  have key (f : Notice → Bool) (l : List QueuedNotice) : (l.filter fun x => f x.notice).length = ((l.map (·.notice)).filter f).length := by
    rw [List.filter_map, List.length_map]
    rfl
  have ho (l : List QueuedNotice) := key (fun n => decide (n.kind ≠ .overflow)) l
  have hv (l : List QueuedNotice) := key (fun n => decide (n.kind = .overflow)) l
  unfold QueueRoom ordinaryCount overflowCount at *
  rwa [ho, hv, hn, ← ho, ← hv]

theorem markSent_notices (n : Nat) (q : List QueuedNotice) : (markSent n q).map (·.notice) = q.map (·.notice) := by
  induction q generalizing n with
  | nil => cases n <;> rfl
  | cons x q ih =>
    cases n with
    | zero => rfl
    | succ n =>
      unfold markSent
      split <;> simp [ih]

theorem unsend_notices (e : EventUnit) : e.unsend.queue.map (·.notice) = e.queue.map (·.notice) := by
  simp [EventUnit.unsend, Function.comp_def]

theorem dropReport_notices (e : EventUnit) : e.dropReport.queue.map (·.notice) = e.queue.map (·.notice) := by
  unfold EventUnit.dropReport
  split
  · exact unsend_notices e
  · rfl

theorem acknowledge_queue (e : EventUnit) (n : Half) : (e.acknowledge n).queue = e.queue.filter fun x => !x.covered n := by
  unfold EventUnit.acknowledge
  dsimp only
  split <;> rfl

theorem queueRoom_closed : EventsClosed fun e => QueueRoom e.queue where
  raise {e} k p x c d hk h := by
    unfold EventUnit.raise
    split
    · next hc =>
      refine ⟨?_, ?_⟩
      · rw [ordinaryCount_append]
        simpa [ordinaryCount, hk] using hc.2
      · rw [overflowCount_append]
        simpa [overflowCount, hk] using h.2
    · exact h
  tick _ h := h
  poolMark _ h := h
  withSink _ h := h.of_notices (dropReport_notices _)
  reportDue _ _ h := h
  acknowledge {e} n h := by
    rw [acknowledge_queue]
    exact h.sublist List.filter_sublist
  queueOverflow {e} c h := by
    unfold EventUnit.queueOverflow
    split
    · next hc =>
      obtain ⟨-, hroom, hnone⟩ := hc
      have hzero : overflowCount e.queue = 0 := by
        simpa [overflowCount, overflowInQueue] using hnone
      refine ⟨?_, ?_⟩
      · rw [ordinaryCount_append]
        simpa [ordinaryCount] using h.1
      · rw [overflowCount_append, hzero]
        exact Nat.le_refl 1
    · exact h
  retransmitted _ _ _ _ h := h
  built _ _ _ _ h := h.of_notices (markSent_notices ..)
  powerOn := ⟨Nat.zero_le _, Nat.zero_le _⟩

/-! ### SENT notices and their report (R151, R156) -/

/-- SENT notices stand first exactly where the queue is made of at most eight SENT notices and the UNSENT ones. -/
theorem sentFirst_iff {q : List QueuedNotice} : SentFirst q ↔
    ∃ a b, q = a ++ b ∧ a.length ≤ Config.reportNotices ∧ (∀ x ∈ a, x.sent = true) ∧ ∀ x ∈ b, x.sent = false := by
  constructor
  · rintro ⟨n, hn, ha, hb⟩
    exact ⟨q.take n, q.drop n, (List.take_append_drop n q).symm, (List.length_take_le ..).trans hn, ha, hb⟩
  · rintro ⟨a, b, rfl, hn, ha, hb⟩
    exact ⟨a.length, hn, by simpa using ha, by simpa using hb⟩

theorem SentFirst.append {q : List QueuedNotice} (h : SentFirst q) {x : QueuedNotice} (hx : x.sent = false) :
    SentFirst (q ++ [x]) := by
  obtain ⟨a, b, rfl, hn, ha, hb⟩ := sentFirst_iff.1 h
  refine sentFirst_iff.2 ⟨a, b ++ [x], by simp, hn, ha, fun y hy => ?_⟩
  rcases List.mem_append.1 hy with hy | hy
  · exact hb y hy
  · rw [List.mem_singleton.1 hy]
    exact hx

theorem SentFirst.filter {q : List QueuedNotice} (h : SentFirst q) (f : QueuedNotice → Bool) : SentFirst (q.filter f) := by
  obtain ⟨a, b, rfl, hn, ha, hb⟩ := sentFirst_iff.1 h
  exact sentFirst_iff.2 ⟨a.filter f, b.filter f, List.filter_append .., (List.length_filter_le ..).trans hn,
    fun x hx => ha x (List.mem_filter.1 hx).1, fun x hx => hb x (List.mem_filter.1 hx).1⟩

theorem SentFirst.of_unsent {q : List QueuedNotice} (h : ∀ x ∈ q, x.sent = false) : SentFirst q :=
  sentFirst_iff.2 ⟨[], q, rfl, Nat.zero_le _, fun _ hx => (nomatch hx), h⟩

/-- Of a queue without SENT notices the first ones become SENT (R155). -/
theorem markSent_of_unsent {q : List QueuedNotice} (h : ∀ x ∈ q, x.sent = false) (n : Nat) :
    markSent n q = ((q.take n).map fun x => { x with sent := true }) ++ q.drop n := by
  induction q generalizing n with
  | nil => cases n <;> rfl
  | cons x q ih =>
    cases n with
    | zero => rfl
    | succ n =>
      have hx := h x (List.mem_cons_self ..)
      rw [markSent, if_neg (by simp [hx]), ih fun y hy => h y (List.mem_cons_of_mem _ hy)]
      rfl

theorem any_sent_eq_false {q : List QueuedNotice} : q.any (·.sent) = false ↔ ∀ x ∈ q, x.sent = false := by
  simp [List.any_eq_false]

/-- Without a report no notice is SENT (R151). -/
theorem EventUnit.Inv.unsent {e : EventUnit} (h : e.Inv) (hr : e.report = none) : ∀ x ∈ e.queue, x.sent = false := by
  obtain ⟨-, hs, -⟩ := h
  rw [hr] at hs
  exact any_sent_eq_false.1 hs.symm

/-- A queue without SENT notices, with no report and no timer, meets the condition. -/
theorem EventUnit.inv_of_unsent {e : EventUnit} (h : ∀ x ∈ e.queue, x.sent = false) (hr : e.report = none) (ht : e.timer = none) :
    e.Inv :=
  ⟨.of_unsent h, by rw [hr, any_sent_eq_false.2 h]; rfl, fun hs => absurd hs (by simp [hr]), fun r hs => absurd hs (by simp [hr]),
    fun _ => ht⟩

theorem EventUnit.Inv.append {e e' : EventUnit} (h : e.Inv) {x : QueuedNotice} (hx : x.sent = false) (hq : e'.queue = e.queue ++ [x])
    (hs : e'.sink = e.sink) (hr : e'.report = e.report) (ht : e'.timer = e.timer) : e'.Inv := by
  obtain ⟨hfirst, hany, hsink, hreport, htimer⟩ := h
  refine ⟨hq ▸ hfirst.append hx, ?_, ?_, ?_, ?_⟩
  · rw [hr, hq, List.any_append, hany]
    simp [hx]
  · rwa [hr, hs]
  · rwa [hr, ht]
  · rwa [hr, ht]

theorem dropReport_inv {e : EventUnit} (h : e.Inv) :
    (∀ x ∈ e.dropReport.queue, x.sent = false) ∧ e.dropReport.report = none ∧ e.dropReport.timer = none := by
  unfold EventUnit.dropReport
  split
  · refine ⟨fun x hx => ?_, rfl, rfl⟩
    obtain ⟨y, -, rfl⟩ := List.mem_map.1 hx
    rfl
  · next hn =>
    have hr : e.report = none := by simpa using hn
    exact ⟨h.unsent hr, hr, h.2.2.2.2 hr⟩

theorem eventsInv_closed : EventsClosed EventUnit.Inv where
  raise k p x c d _ h := by
    unfold EventUnit.raise
    split
    · exact h.append rfl rfl rfl rfl rfl
    · exact h
  tick f h := by
    obtain ⟨hfirst, hany, hsink, hreport, htimer⟩ := h
    refine ⟨hfirst, hany, hsink, fun r hr => ?_, fun hr => ?_⟩
    · obtain ⟨h1, h2, h3, h4⟩ := hreport r hr
      exact ⟨h1, h2, h3, by rw [← h4]; exact Option.isSome_map⟩
    · dsimp only
      rw [htimer hr]
      rfl
  poolMark _ h := h
  withSink _ h :=
    have ⟨hunsent, hreport, htimer⟩ := dropReport_inv h
    EventUnit.inv_of_unsent hunsent hreport htimer
  reportDue {e r} hr hs h := by
    obtain ⟨hfirst, hany, hsink, hreport, -⟩ := h
    obtain ⟨h1, h2, -⟩ := hreport r hr
    refine ⟨hfirst, by rw [← hany, hr]; rfl, fun _ => hsink (by rw [hr]; rfl), fun x hx => ?_, fun hx => nomatch hx⟩
    cases hx
    exact ⟨h1, h2, fun _ => Nat.le_of_lt_succ hs, rfl⟩
  acknowledge {e} n h := by
    obtain ⟨hfirst, hany, hsink, hreport, htimer⟩ := h
    unfold EventUnit.acknowledge
    dsimp only
    split
    · next hs =>
      refine ⟨hfirst.filter _, ?_, hsink, hreport, htimer⟩
      have : e.queue.any (·.sent) = true := by
        obtain ⟨x, hx, hxs⟩ := List.any_eq_true.1 hs
        exact List.any_eq_true.2 ⟨x, (List.mem_filter.1 hx).1, hxs⟩
      rw [hany, this, hs]
    · next hs => exact EventUnit.inv_of_unsent (any_sent_eq_false.1 (by simpa using hs)) rfl rfl
  queueOverflow c h := by
    unfold EventUnit.queueOverflow
    split
    · exact h.append rfl rfl rfl rfl rfl
    · exact h
  retransmitted {e r} n hsink hr hd h := by
    obtain ⟨hfirst, hany, -, hreport, -⟩ := h
    obtain ⟨-, -, h3, -⟩ := hreport r hr
    refine ⟨hfirst, by rw [← hany, hr]; rfl, fun _ => hsink, fun x hx => ?_, fun hx => nomatch hx⟩
    cases hx
    exact ⟨Nat.le_add_left .., Nat.succ_le_succ (h3 hd), fun hx => (nomatch hx), rfl⟩
  built {e} n hsink hr hu h := by
    have hunsent := h.unsent hr
    have hmark := markSent_of_unsent hunsent Config.reportNotices
    refine ⟨?_, ?_, fun _ => hsink, fun x hx => ?_, fun hx => nomatch hx⟩
    · refine sentFirst_iff.2 ⟨_, _, hmark, ?_, fun x hx => ?_, fun x hx => hunsent x (List.mem_of_mem_drop hx)⟩
      · rw [List.length_map]
        exact List.length_take_le ..
      · obtain ⟨y, -, rfl⟩ := List.mem_map.1 hx
        rfl
    · dsimp only
      rw [hmark]
      cases hq : e.queue with
      | nil => exact absurd (by rw [hq]; rfl) hu
      | cons x q => rfl
    · cases hx
      exact ⟨Nat.le_refl 1, by decide, fun hx => (nomatch hx), rfl⟩
  powerOn := EventUnit.inv_of_unsent (fun _ hx => nomatch hx) rfl rfl

/-! ### The own-frame slots (R77) -/

/-- The own-frame slot that a transmitter holds. -/
def Transmitter.ownSlots : Transmitter → Nat
  | .busy (.own _) _ _ => 1
  | _ => 0

theorem slotsTaken_eq (s : State) : s.slotsTaken = s.own.length + s.ports.t.tx.ownSlots := by
  unfold State.slotsTaken Transmitter.ownSlots
  rfl

theorem Transmitter.elapse_ownSlots (x : Transmitter) (n : Nat) : (x.elapse n).ownSlots = x.ownSlots := by
  cases x with
  | idle => rfl
  | busy frame _ _ => cases frame <;> rfl

/-- No more than eight own frames (R77). -/
def State.SlotsFit (s : State) : Prop := s.slotsTaken ≤ Config.ownSlots

theorem slotsFit_of_le {s t : State} (ho : t.own.length ≤ s.own.length)
    (ht : (t.ports.get .t).tx.ownSlots ≤ (s.ports.get .t).tx.ownSlots) (h : s.SlotsFit) : t.SlotsFit := by
  unfold State.SlotsFit at *
  rw [slotsTaken_eq] at *
  exact (Nat.add_le_add ho ht).trans h

theorem slotsFit_same {s t : State} (ho : t.own = s.own) (hp : t.ports = s.ports) (h : s.SlotsFit) : t.SlotsFit :=
  slotsFit_of_le (by rw [ho]) (by rw [hp]) h

/-- A change at one port whose transmitter holds no more slots than before. -/
theorem slotsFit_onPort {s : State} (p : Port) {f : PortUnit → PortUnit}
    (hf : (f (s.ports.get p)).tx.ownSlots ≤ (s.ports.get p).tx.ownSlots) (h : s.SlotsFit) : (s.onPort p f).SlotsFit := by
  refine slotsFit_of_le (s := s) (Nat.le_refl _) ?_ h
  rw [State.onPort_ports, PerPort.get_set]
  split
  · next hp => exact hp ▸ hf
  · exact Nat.le_refl _

theorem slotFree_iff {s : State} : s.slotFree = true ↔ s.slotsTaken < Config.ownSlots := decide_eq_true_iff

theorem slotsFit_appendOwn {s : State} (f : OwnFrame) (hfree : s.slotFree = true) : (s.appendOwn f).SlotsFit := by
  obtain ⟨hown, hports, -⟩ := appendOwn_rest s f
  have := slotFree_iff.1 hfree
  unfold State.SlotsFit
  rw [slotsTaken_eq] at *
  rw [hown, hports, List.length_append]
  simp only [List.length_singleton]
  omega

theorem slotsFit_retransmit {s : State} (h : s.SlotsFit) : s.retransmit.SlotsFit := by
  unfold State.retransmit
  split
  · split
    · next hc => exact slotsFit_appendOwn _ hc.2
    · exact h
  · exact h

theorem slotsFit_buildReport {s : State} (h : s.SlotsFit) : s.buildReport.SlotsFit := by
  unfold State.buildReport
  split
  · exact h
  · split
    · next hc => exact slotsFit_appendOwn _ hc.2.2
    · exact h

theorem offerSync_tx (s : State) (p q : Port) :
    ((s.offerSync p).ports.get q).tx.ownSlots = (s.ports.get q).tx.ownSlots := by
  unfold State.offerSync
  dsimp only
  split
  · split
    · next hi =>
      rw [State.onPort_ports, PerPort.get_set]
      split
      · next hq => rw [hq, (isIdle_iff _).1 hi]; rfl
      · rfl
    · rw [State.onCount_ports, PerPort.get_set]
      split
      · next hq => rw [hq]
      · rfl
  · rfl

theorem PortUnit.offered_tx (u : PortUnit) (d : Descriptor) : (u.offered d).tx = u.tx := by
  unfold PortUnit.offered
  split <;> rfl

theorem slotsFit_acceptFrame {s : State} (e : StreamEntry) (x : Header) (payload : List Byte) (held : Nat) (h : s.SlotsFit) :
    (s.acceptFrame e x payload held).SlotsFit := by
  obtain ⟨-, hown, -, -, hports, -⟩ := acceptFrame_spec s e x payload held
  refine slotsFit_of_le (by rw [hown]) ?_ h
  rw [hports]
  split
  · rw [PortUnit.offered_tx]
  · exact Nat.le_refl _

theorem slotsFit_startOwn {s : State} {f : OwnFrame} {rest : List OwnFrame} (ho : s.own = f :: rest) (h : s.SlotsFit) :
    (s.startOwn f rest).SlotsFit := by
  unfold State.SlotsFit at *
  rw [slotsTaken_eq] at *
  have hown : (s.startOwn f rest).own = rest := rfl
  have htx : (s.startOwn f rest).ports.t.tx.ownSlots = 1 := rfl
  rw [ho, List.length_cons] at h
  rw [hown, htx]
  omega

theorem slotsFit_closed : WorkClosed fun _ _ s => s.SlotsFit where
  same hw := slotsFit_same hw.own hw.ports
  advance {_ _ s} n := slotsFit_of_le (Nat.le_refl _) (by rw [advance_port]; exact (Transmitter.elapse_ownSlots ..).le)
  count p _ := slotsFit_onPort p (Nat.le_refl _)
  records _ _ := slotsFit_same rfl rfl
  marks _ := slotsFit_same rfl rfl
  raiseAt _ _ _ _ _ _ := slotsFit_same rfl rfl
  poolMark _ := slotsFit_same rfl rfl
  withSink _ := slotsFit_same rfl rfl
  reportDue _ _ := slotsFit_same rfl rfl
  acknowledge _ := slotsFit_same rfl rfl
  queueOverflow := slotsFit_same rfl rfl
  retransmit := slotsFit_retransmit
  buildReport := slotsFit_buildReport
  appendOwn f hfree _ := slotsFit_appendOwn f hfree
  clearOwn := slotsFit_of_le (Nat.zero_le _) (Nat.le_refl _)
  dequeue p _ _ _ _ := slotsFit_onPort p (Nat.le_refl _)
  release _ := slotsFit_same rfl rfl
  startData p _ _ _ _ _ _ := slotsFit_onPort p (Nat.zero_le _)
  startOwn _ _ _ _ ho := slotsFit_startOwn ho
  offerSync {_ _ s} p := slotsFit_of_le (by rw [(offerSync_rest s p).2.2.2.1]) (by rw [offerSync_tx])
  endTx p := slotsFit_onPort p (Nat.zero_le _)
  accept e x payload held := slotsFit_acceptFrame e x payload held
  receive p _ _ _ _ := slotsFit_onPort p (Nat.le_refl _)
  claim {_ _ s} p need _ _ h := slotsFit_onPort (s := s.setStore { s.store with free := s.store.free - need }) p (Nat.le_refl _) h
  endRx p := slotsFit_onPort p (Nat.le_refl _)
  endUnstored p _ := slotsFit_onPort p (Nat.le_refl _)
  returnBlocks _ := slotsFit_same rfl rfl
  setAdmin p _ _ _ _ := slotsFit_onPort p (Nat.le_refl _)
  linkUp p := slotsFit_onPort p (Nat.le_refl _)
  linkDown p _ _ _ := slotsFit_onPort p (Nat.le_refl _)
  warmRestart _ := Nat.zero_le _
  reset := slotsFit_same rfl rfl

theorem slotsFit_step : KeptByStep State.SlotsFit := by
  intro s t hs he
  refine slotsFit_closed.step (fun a b l q => ?_) (fun q => ?_) hs he
  · exact Nat.zero_le _
  · exact slotsFit_closed.cycleStart_of_swap (slotsFit_same rfl rfl) fun _ => slotsFit_same rfl rfl

theorem queueInv_iff {s : State} :
    s.QueueInv ↔ s.PortsMeet (fun _ u => u.QueuesOk) ∧ s.SlotsFit ∧ QueueRoom s.events.queue := by
  rw [queueRoom_iff]
  constructor
  · rintro ⟨hlength, hcls, hslots, hroom⟩
    exact ⟨fun p c => ⟨hlength p c, hcls p c⟩, hslots, hroom⟩
  · rintro ⟨hports, hslots, hroom⟩
    exact ⟨fun p c => (hports p c).1, fun p c => (hports p c).2, hslots, hroom⟩

/-- Settles O57: the class queues port by port, the slots, and the event unit's own conditions. -/
theorem everyStepKeepsQueuesAndReport : Obligations.EveryStepKeepsQueuesAndReport := by
  refine ⟨fun s t h he => ?_, eventsInv_closed.step⟩
  obtain ⟨hports, hslots, hroom⟩ := queueInv_iff.1 h
  exact queueInv_iff.2 ⟨queuesOk_closed.step s t hports he, slotsFit_step s t hslots he, queueRoom_closed.step s t hroom he⟩

end Sys2Proof.Machine
end

section
/-! The standing conditions on the frame store: its 512 blocks (R64), and the reference counts of stored frames (R67). -/

namespace Sys2Proof.Machine

open Sys2Proof

/-! ### Blocks (R64) -/

/-- Every block is free, held by a reception, part of a stored frame, or one of `n` in hand; a receiver outside STORE holds none (R64). -/
def State.PoolHolds (n : Nat) (s : State) : Prop :=
  s.store.free + s.heldBlocks + s.storedBlocks + n = Config.poolBlocks ∧
    ∀ p, (s.ports.get p).rx.state ≠ .store → (s.ports.get p).rx.held = 0

theorem heldBlocks_onPort (s : State) (p : Port) (f : PortUnit → PortUnit) :
    (s.onPort p f).heldBlocks + (s.ports.get p).rx.held = s.heldBlocks + (f (s.ports.get p)).rx.held := by
  cases p <;> simp [State.heldBlocks, Port.all, PerPort.get, PerPort.set] <;> omega

theorem heldBlocks_congr {s t : State} (h : ∀ p, (t.ports.get p).rx.held = (s.ports.get p).rx.held) : t.heldBlocks = s.heldBlocks := by
  simp only [State.heldBlocks, h]

section
variable {n : Nat} {s t : State}

/-- The condition reads the store and what each receiver holds. -/
theorem poolHolds_same (hs : t.store = s.store) (hh : ∀ p, (t.ports.get p).rx.held = (s.ports.get p).rx.held)
    (hx : ∀ p, (t.ports.get p).rx.state = (s.ports.get p).rx.state) (h : s.PoolHolds n) : t.PoolHolds n := by
  obtain ⟨hsum, hnone⟩ := h
  refine ⟨?_, fun p hp => ?_⟩
  · rw [State.storedBlocks, heldBlocks_congr hh, hs]
    exact hsum
  · rw [hh]
    rw [hx] at hp
    exact hnone p hp

theorem poolHolds_keep (hs : t.store = s.store) (hp : t.ports = s.ports) (h : s.PoolHolds n) : t.PoolHolds n :=
  poolHolds_same hs (fun p => by rw [hp]) (fun p => by rw [hp]) h

/-- A change at one port that leaves its receiver. -/
theorem poolHolds_onPort (p : Port) {f : PortUnit → PortUnit} (hf : (f (s.ports.get p)).rx = (s.ports.get p).rx)
    (h : s.PoolHolds n) : (s.onPort p f).PoolHolds n := by
  have hrx (q : Port) : ((s.onPort p f).ports.get q).rx = (s.ports.get q).rx := by
    rw [State.onPort_ports, PerPort.get_set]
    split
    · next hq => rw [hq, hf]
    · rfl
  exact poolHolds_same (s := s) rfl (fun q => by rw [hrx]) (fun q => by rw [hrx]) h

/-- A receiver that takes another record: what it held more than before must be taken from the free blocks or those in hand. -/
theorem poolHolds_onRx (p : Port) (r : Reception) {x : FrameStore} {m : Nat} (hframes : x.frames = s.store.frames)
    (hsum : x.free + r.held + m = s.store.free + (s.ports.get p).rx.held + n) (hr : r.state ≠ .store → r.held = 0)
    (h : s.PoolHolds n) : ((s.setStore x).onRx p fun _ => r).PoolHolds m := by
  obtain ⟨htotal, hnone⟩ := h
  have hheld := heldBlocks_onPort (s.setStore x) p fun u => { u with rx := r }
  have hsame : (s.setStore x).heldBlocks = s.heldBlocks := rfl
  refine ⟨?_, fun q hq => ?_⟩
  · have hstored : ((s.setStore x).onRx p fun _ => r).storedBlocks = s.storedBlocks := by
      show (x.frames.map (·.blocks)).sum = _
      rw [hframes]
      rfl
    have hfree : ((s.setStore x).onRx p fun _ => r).store.free = x.free := rfl
    rw [hstored, hfree]
    have hheld : ((s.setStore x).onRx p fun _ => r).heldBlocks + (s.ports.get p).rx.held = s.heldBlocks + r.held := hheld
    omega
  · have hget : ((s.setStore x).onRx p fun _ => r).ports.get q = if q = p then { s.ports.get p with rx := r } else s.ports.get q :=
      PerPort.get_set ..
    rw [hget] at hq ⊢
    by_cases hqp : q = p
    · rw [if_pos hqp] at hq ⊢
      exact hr hq
    · rw [if_neg hqp] at hq ⊢
      exact hnone q hq

theorem poolHolds_acceptFrame (e : StreamEntry) (x : Header) (payload : List Byte) (held : Nat) (h : s.PoolHolds held) :
    (s.acceptFrame e x payload held).PoolHolds 0 := by
  obtain ⟨-, -, -, -, hports, -, -, hstore⟩ := acceptFrame_spec s e x payload held
  have hrx (q : Port) : ((s.acceptFrame e x payload held).ports.get q).rx = (s.ports.get q).rx := by
    rw [hports]
    split
    · unfold PortUnit.offered
      split <;> rfl
    · rfl
  obtain ⟨hsum, hnone⟩ := h
  refine ⟨?_, fun p => by rw [hrx]; exact hnone p⟩
  have hheld : (s.acceptFrame e x payload held).heldBlocks = s.heldBlocks := heldBlocks_congr fun p => by rw [hrx]
  rw [hheld, State.storedBlocks, hstore]
  unfold State.storedBlocks at hsum
  split
  · dsimp only
    omega
  · simp only [List.map_append, List.sum_append, List.map_singleton, List.sum_singleton]
    omega

theorem poolHolds_release (d : Descriptor) (h : s.PoolHolds n) : (s.release d).PoolHolds n := by
  obtain ⟨hsum, hnone⟩ := h
  refine ⟨?_, hnone⟩
  have hb := release_blocks s.store d.frame
  have hheld : (s.release d).heldBlocks = s.heldBlocks := rfl
  have hstore : (s.release d).store = s.store.release d.frame := rfl
  unfold State.storedBlocks at *
  rw [hheld, hstore]
  omega

theorem offerSync_rx (s : State) (p q : Port) : ((s.offerSync p).ports.get q).rx = (s.ports.get q).rx := by
  unfold State.offerSync
  dsimp only
  split
  · split
    · rw [State.onPort_ports, PerPort.get_set]
      split
      · next hq => rw [hq]
      · rfl
    · rw [State.onCount_ports, PerPort.get_set]
      split
      · next hq => rw [hq]
      · rfl
  · rfl

/-- With every receiver idle and an empty store every block is free. -/
theorem poolHolds_empty (hs : s.store = { free := Config.poolBlocks, frames := [] }) (hh : ∀ p, (s.ports.get p).rx.held = 0) :
    s.PoolHolds 0 := by
  refine ⟨?_, fun p _ => hh p⟩
  simp only [State.heldBlocks, State.storedBlocks, hs, hh]
  rfl

end

theorem poolHolds_closed : WorkClosed fun _ n s => s.PoolHolds n where
  same hw := poolHolds_keep hw.store hw.ports
  advance n := poolHolds_same rfl (fun p => advance_rx_held ..) fun p => advance_rx_state ..
  count p _ := poolHolds_onPort p rfl
  records _ _ := poolHolds_keep rfl rfl
  marks _ := poolHolds_keep rfl rfl
  raiseAt _ _ _ _ _ _ := poolHolds_keep rfl rfl
  poolMark _ := poolHolds_keep rfl rfl
  withSink _ := poolHolds_keep rfl rfl
  reportDue _ _ := poolHolds_keep rfl rfl
  acknowledge _ := poolHolds_keep rfl rfl
  queueOverflow := poolHolds_keep rfl rfl
  retransmit {_ _ s} := poolHolds_keep (retransmit_rest s).2.2.1 (retransmit_rest s).1
  buildReport {_ _ s} := poolHolds_keep (buildReport_rest s).2.2.1 (buildReport_rest s).1
  appendOwn {_ _ s} f _ := poolHolds_keep (appendOwn_rest s f).2.2.1 (appendOwn_rest s f).2.1
  clearOwn := poolHolds_keep rfl rfl
  dequeue p _ _ _ _ := poolHolds_onPort p rfl
  release d := poolHolds_release d
  startData p _ _ _ _ _ _ := poolHolds_onPort p rfl
  startOwn {_ _ s} _ rest _ _ _ h := poolHolds_onPort (s := s.setOwn rest) .t rfl (poolHolds_keep (s := s) rfl rfl h)
  offerSync {_ _ s} p := poolHolds_same (offerSync_rest s p).2.2.2.2 (fun q => by rw [offerSync_rx]) fun q => by rw [offerSync_rx]
  endTx p := poolHolds_onPort p rfl
  accept e x payload held := poolHolds_acceptFrame e x payload held
  receive {_ n s} p r _ hx hr h := by
    have hzero : (s.ports.get p).rx.held = 0 := h.2 p hx
    exact poolHolds_onRx (s := s) (x := s.store) p r rfl (by omega) (fun _ => by omega) h
  claim {_ n s} p need hx hneed h := by
    have hzero : (s.ports.get p).rx.held = 0 := h.2 p (by simp [hx])
    exact poolHolds_onRx p { (s.ports.get p).rx with state := .store, held := need } rfl (by dsimp only; omega)
      (fun hn => absurd rfl hn) h
  endRx {_ n s} p h := poolHolds_onRx (s := s) (x := s.store) p .rest rfl (by simp only [Reception.rest]; omega) (fun _ => rfl) h
  endUnstored {_ n s} p hx h := by
    have hzero : (s.ports.get p).rx.held = 0 := h.2 p hx
    exact poolHolds_onRx (s := s) (x := s.store) p .rest rfl (by simp only [Reception.rest]; omega) (fun _ => rfl) h
  returnBlocks {_ n s} k h := by
    obtain ⟨hsum, hnone⟩ := h
    refine ⟨?_, hnone⟩
    have hheld : (s.returnBlocks k).heldBlocks = s.heldBlocks := rfl
    have hstored : (s.returnBlocks k).storedBlocks = s.storedBlocks := rfl
    have hfree : (s.returnBlocks k).store.free = s.store.free + k := rfl
    rw [hheld, hstored, hfree]
    omega
  setAdmin p _ _ _ _ := poolHolds_onPort p rfl
  linkUp p := poolHolds_onPort p rfl
  linkDown p _ _ _ := poolHolds_onPort p rfl
  warmRestart _ := poolHolds_empty rfl fun p => by
    show ((_ : PerPort PortUnit).map PortUnit.warm |>.get p).rx.held = 0
    rw [PerPort.get_map]
    rfl
  reset := poolHolds_keep rfl rfl

/-- Settles O56: the condition with no block in hand is kept by the operations of a step, a natural cycle start and a release among them. -/
theorem everyStepKeepsThePool : Obligations.EveryStepKeepsThePool := by
  intro s t hs he
  refine poolHolds_closed.step (fun a b l q => ?_) (fun q => ?_) hs he
  · refine poolHolds_empty rfl fun p => ?_
    show ((l.map PortUnit.powerOn).get p).rx.held = 0
    rw [PerPort.get_map]
    rfl
  · exact poolHolds_closed.cycleStart_of_swap (poolHolds_keep rfl rfl) fun _ => poolHolds_keep rfl rfl

end Sys2Proof.Machine
end

section
/-! The standing condition on reference counts (R67): each stored frame's count is the number of its descriptors, queued, in flight, or in the hand of
the operation under way. -/

namespace Sys2Proof.Machine

open Sys2Proof

/-! ### Frames and the descriptors that refer to them -/

/-- How many of these descriptors refer to a frame. -/
def refCount (l : List Descriptor) (ref : Nat) : Nat := l.countP fun d => d.frame = ref

/-- Stored frames with the descriptors that refer to them (R67). -/
structure RefsOk (fs : List StoredFrame) (l : List Descriptor) : Prop where
  distinct : (fs.map (·.ref)).Nodup
  counts : ∀ f ∈ fs, 1 ≤ f.count ∧ f.count = refCount l f.ref
  stored : ∀ d ∈ l, ∃ f ∈ fs, f.ref = d.frame

theorem refCount_cons (d : Descriptor) (l : List Descriptor) (ref : Nat) :
    refCount (d :: l) ref = refCount l ref + if d.frame = ref then 1 else 0 := by
  simp [refCount, List.countP_cons]

theorem refCount_pos {d : Descriptor} {l : List Descriptor} (h : d ∈ l) : 1 ≤ refCount l d.frame :=
  List.countP_pos_iff.2 ⟨d, h, by simp⟩

namespace RefsOk

variable {fs : List StoredFrame} {l : List Descriptor}

theorem perm (h : RefsOk fs l) {m : List Descriptor} (hp : List.Perm l m) : RefsOk fs m :=
  ⟨h.distinct, fun f hf => ⟨(h.counts f hf).1, (h.counts f hf).2.trans (hp.countP_eq _)⟩, fun d hd => h.stored d (hp.mem_iff.2 hd)⟩

theorem empty : RefsOk [] [] := ⟨List.nodup_nil, fun _ hf => (nomatch hf), fun _ hd => (nomatch hd)⟩

end RefsOk

theorem releaseIn_ref_mem {ref : Nat} {fs : List StoredFrame} {g : StoredFrame} (h : g ∈ (releaseIn ref fs).1) :
    ∃ f ∈ fs, f.ref = g.ref := by
  induction fs with
  | nil => cases h
  | cons f fs ih =>
    unfold releaseIn at h
    split at h
    · split at h
      · exact ⟨g, List.mem_cons_of_mem _ h, rfl⟩
      · rcases List.mem_cons.1 h with rfl | h
        · exact ⟨f, List.mem_cons_self .., rfl⟩
        · exact ⟨g, List.mem_cons_of_mem _ h, rfl⟩
    · rcases List.mem_cons.1 h with rfl | h
      · exact ⟨g, List.mem_cons_self .., rfl⟩
      · obtain ⟨x, hx, he⟩ := ih h
        exact ⟨x, List.mem_cons_of_mem _ hx, he⟩

theorem releaseIn_distinct {ref : Nat} {fs : List StoredFrame} (h : (fs.map (·.ref)).Nodup) :
    ((releaseIn ref fs).1.map (·.ref)).Nodup := by
  induction fs with
  | nil => exact h
  | cons f fs ih =>
    obtain ⟨hf, hfs⟩ := List.nodup_cons.1 h
    unfold releaseIn
    split
    · split
      · exact hfs
      · exact h
    · refine List.nodup_cons.2 ⟨fun hm => hf ?_, ih hfs⟩
      obtain ⟨g, hg, he⟩ := List.mem_map.1 hm
      obtain ⟨x, hx, hxe⟩ := releaseIn_ref_mem hg
      exact List.mem_map.2 ⟨x, hx, hxe.trans he⟩

/-- Among frames of different references, those that a handed-back reference leaves: the others, and its own frame with one reference less where it
had more than one (R67). -/
theorem mem_releaseIn {ref : Nat} {fs : List StoredFrame} (h : (fs.map (·.ref)).Nodup) {g : StoredFrame} :
    g ∈ (releaseIn ref fs).1 ↔
      g ∈ fs ∧ g.ref ≠ ref ∨ ∃ f ∈ fs, f.ref = ref ∧ 1 < f.count ∧ g = { f with count := f.count - 1 } := by
  induction fs with
  | nil => simp [releaseIn]
  | cons f fs ih =>
    obtain ⟨hf, hfs⟩ := List.nodup_cons.1 h
    unfold releaseIn
    by_cases hr : f.ref = ref
    · have hother : ∀ x ∈ fs, x.ref ≠ ref := fun x hx he => hf (List.mem_map.2 ⟨x, hx, he.trans hr.symm⟩)
      rw [if_pos hr]
      by_cases hc : f.count ≤ 1
      · rw [if_pos hc]
        grind
      · rw [if_neg hc]
        grind
    · rw [if_neg hr]
      have ih := ih hfs
      grind

/-- A descriptor hands back its frame's reference (R67). -/
theorem RefsOk.release {fs : List StoredFrame} {d : Descriptor} {l : List Descriptor} (h : RefsOk fs (d :: l)) :
    RefsOk (releaseIn d.frame fs).1 l := by
  refine ⟨releaseIn_distinct h.distinct, fun g hg => ?_, fun x hx => ?_⟩
  · rcases (mem_releaseIn h.distinct).1 hg with ⟨hg, hne⟩ | ⟨f, hf, hr, hc, rfl⟩
    · obtain ⟨hpos, hcount⟩ := h.counts g hg
      rw [refCount_cons, if_neg (Ne.symm hne)] at hcount
      exact ⟨hpos, hcount⟩
    · obtain ⟨-, hcount⟩ := h.counts f hf
      rw [refCount_cons, if_pos hr.symm] at hcount
      dsimp only
      omega
  · obtain ⟨f, hf, hr⟩ := h.stored x (List.mem_cons_of_mem _ hx)
    by_cases hd : f.ref = d.frame
    · obtain ⟨-, hcount⟩ := h.counts f hf
      rw [refCount_cons, if_pos hd.symm, hr] at hcount
      have := refCount_pos hx
      exact ⟨_, (mem_releaseIn h.distinct).2 (.inr ⟨f, hf, hd, by omega, rfl⟩), hr⟩
    · exact ⟨f, (mem_releaseIn h.distinct).2 (.inl ⟨hf, hd⟩), hr⟩

/-- A new frame comes with as many descriptors as its count says (R39, R67). -/
theorem RefsOk.store {fs : List StoredFrame} {l : List Descriptor} (h : RefsOk fs l) {f : StoredFrame} {d : Descriptor}
    (hnew : ∀ g ∈ fs, g.ref ≠ f.ref) (hd : d.frame = f.ref) (hpos : 1 ≤ f.count) :
    RefsOk (fs ++ [f]) (l ++ List.replicate f.count d) := by
  have hcount (ref : Nat) : refCount (l ++ List.replicate f.count d) ref = refCount l ref + if f.ref = ref then f.count else 0 := by
    rw [refCount, List.countP_append, List.countP_replicate, ← refCount, hd]
    simp
  refine ⟨?_, fun g hg => ?_, fun x hx => ?_⟩
  · rw [List.map_append, List.map_singleton]
    refine List.Nodup.append h.distinct (List.nodup_singleton _) ?_
    rw [List.disjoint_singleton]
    intro hm
    obtain ⟨g, hg, he⟩ := List.mem_map.1 hm
    exact hnew g hg he
  · rw [hcount]
    rcases List.mem_append.1 hg with hg | hg
    · rw [if_neg (Ne.symm (hnew g hg))]
      exact h.counts g hg
    · rw [List.mem_singleton.1 hg, if_pos rfl]
      refine ⟨hpos, ?_⟩
      have : refCount l f.ref = 0 := by
        refine List.countP_eq_zero.2 fun x hx => ?_
        obtain ⟨g, hg, he⟩ := h.stored x hx
        simpa [he] using hnew g hg
      omega
  · rcases List.mem_append.1 hx with hx | hx
    · obtain ⟨g, hg, he⟩ := h.stored x hx
      exact ⟨g, List.mem_append_left _ hg, he⟩
    · rw [List.eq_of_mem_replicate hx]
      exact ⟨f, List.mem_append_right _ (List.mem_singleton_self f), hd.symm⟩

/-! ### The descriptors of the gate -/

/-- What one port adds to the descriptors of the gate, it adds to its own. -/
theorem descriptors_onPort (s : State) (p : Port) (f : PortUnit → PortUnit) :
    List.Perm ((s.ports.get p).descriptors ++ (s.onPort p f).descriptors) ((f (s.ports.get p)).descriptors ++ s.descriptors) := by
  rw [List.perm_iff_count]
  intro d
  cases p <;>
    simp only [State.descriptors, Port.all, List.flatMap_cons, List.flatMap_nil, List.append_nil, List.count_append, State.onPort_ports,
      PerPort.get, PerPort.set] <;> omega

theorem descriptors_congr {s t : State} (h : ∀ p, (t.ports.get p).descriptors = (s.ports.get p).descriptors) :
    t.descriptors = s.descriptors := by
  simp only [State.descriptors, h]

theorem Quad.set_set_get {α : Type} (q : Quad α) (i : Fin 4) (a : α) : (q.set i a).set i (q.get i) = q := by
  refine Quad.ext_get fun j => ?_
  rw [Quad.get_set, Quad.get_set]
  split
  · next h => rw [h]
  · rfl

/-- References held, those of `ds` among them (R67). -/
def State.RefsHold (ds : List Descriptor) (s : State) : Prop := RefsOk s.store.frames (ds ++ s.descriptors)

section
variable {ds : List Descriptor} {s t : State}

theorem refsHold_same (hs : t.store.frames = s.store.frames) (hp : ∀ p, (t.ports.get p).descriptors = (s.ports.get p).descriptors)
    (h : s.RefsHold ds) : t.RefsHold ds := by
  unfold State.RefsHold at *
  rwa [hs, descriptors_congr hp]

theorem refsHold_keep (hs : t.store = s.store) (hp : t.ports = s.ports) (h : s.RefsHold ds) : t.RefsHold ds :=
  refsHold_same (by rw [hs]) (fun p => by rw [hp]) h

/-- A change at one port moves its descriptors between the port and the hand. -/
theorem refsHold_move (p : Port) {f : PortUnit → PortUnit} {gone : List Descriptor}
    (hf : List.Perm (s.ports.get p).descriptors (gone ++ (f (s.ports.get p)).descriptors)) (h : s.RefsHold ds) :
    (s.onPort p f).RefsHold (gone ++ ds) := by
  refine RefsOk.perm h ?_
  have hport := descriptors_onPort s p f
  rw [List.perm_iff_count] at *
  intro d
  have := hf d
  have := hport d
  simp only [List.count_append] at *
  omega

theorem refsHold_onPort (p : Port) {f : PortUnit → PortUnit}
    (hf : List.Perm (s.ports.get p).descriptors (f (s.ports.get p)).descriptors) (h : s.RefsHold ds) : (s.onPort p f).RefsHold ds :=
  refsHold_move (gone := []) p hf h

/-- A frame in flight that is no data frame, and an idle transmitter, hold no descriptor. -/
theorem descriptors_of_idle {u : PortUnit} (h : u.tx = .idle) : u.descriptors = u.queues.toList.flatten := by
  rw [PortUnit.descriptors, h]
  exact List.append_nil _

theorem offered_descriptors (u : PortUnit) (d : Descriptor) :
    List.Perm (u.offered d).descriptors (u.descriptors ++ if u.admits d then [d] else []) := by
  unfold PortUnit.offered
  split
  · have hperm : List.Perm (u.queues.set d.cls (u.queues.get d.cls ++ [d])).toList.flatten (d :: u.queues.toList.flatten) := by
      refine (Quad.perm_set (i := d.cls) (l := u.queues.get d.cls) (gone := [d]) ?_).trans ?_
      · rw [Quad.get_set, if_pos rfl]
        exact List.perm_append_comm
      · rw [Quad.set_set_get]
        rfl
    unfold PortUnit.descriptors
    refine (hperm.append_right _).trans ?_
    exact (List.perm_append_singleton d _).symm
  · rw [List.append_nil]
    exact List.Perm.refl _

theorem flatMap_offered {ps : List Port} (e : StreamEntry) (d : Descriptor) (h : ∀ q, t.ports.get q =
      if e.egress.get q then (s.ports.get q).offered d else s.ports.get q) :
    List.Perm (ps.flatMap fun p => (t.ports.get p).descriptors)
      (ps.flatMap (fun p => (s.ports.get p).descriptors) ++
        List.replicate (ps.filter fun q => (s.ports.get q).admits d && e.egress.get q).length d) := by
  induction ps with
  | nil => exact List.Perm.refl _
  | cons p ps ih =>
    have hp : List.Perm (t.ports.get p).descriptors
        ((s.ports.get p).descriptors ++ List.replicate (if (s.ports.get p).admits d && e.egress.get p then 1 else 0) d) := by
      rw [h p]
      cases e.egress.get p
      · simp
      · refine (offered_descriptors ..).trans ?_
        cases (s.ports.get p).admits d <;> simp
    have hn : ((p :: ps).filter fun q => (s.ports.get q).admits d && e.egress.get q).length =
        (if (s.ports.get p).admits d && e.egress.get p then 1 else 0) +
          (ps.filter fun q => (s.ports.get q).admits d && e.egress.get q).length := by
      rw [List.filter_cons]
      split <;> simp [Nat.add_comm]
    rw [hn, List.replicate_add]
    rw [List.perm_iff_count] at *
    intro x
    have := hp x
    have := ih x
    simp only [List.flatMap_cons, List.count_append] at *
    omega

theorem refsHold_acceptFrame (e : StreamEntry) (x : Header) (payload : List Byte) (held : Nat) (h : s.RefsHold []) :
    (s.acceptFrame e x payload held).RefsHold [] := by
  obtain ⟨-, -, -, -, hports, -, -, hstore⟩ := acceptFrame_spec s e x payload held
  have hperm := flatMap_offered (ps := Port.all) e (s.frameDescriptor e payload) hports
  have hlen : (Port.all.filter fun q => (s.ports.get q).admits (s.frameDescriptor e payload) && e.egress.get q).length =
      (s.admitting e (s.frameDescriptor e payload)).length := by
    rw [State.admitting, portsOf, List.filter_filter]
  rw [hlen] at hperm
  unfold State.RefsHold at *
  rw [List.nil_append] at *
  refine RefsOk.perm ?_ hperm.symm
  rw [hstore]
  split
  · next hnone =>
    rw [hnone, List.length_nil, List.replicate_zero, List.append_nil]
    exact h
  · next hsome =>
    exact RefsOk.store
      (f := { ref := s.store.freshRef, bytes := headerBytes (lowerHop x) ++ payload, blocks := held,
              count := (s.admitting e (s.frameDescriptor e payload)).length })
      h (fun g hg => freshRef_new s.store g hg) rfl (List.length_pos_iff.2 hsome)

theorem offerSync_descriptors (s : State) (p q : Port) : ((s.offerSync p).ports.get q).descriptors = (s.ports.get q).descriptors := by
  unfold State.offerSync
  dsimp only
  split
  · split
    · next hi =>
      rw [State.onPort_ports, PerPort.get_set]
      split
      · next hq =>
        rw [hq, descriptors_of_idle ((isIdle_iff _).1 hi)]
        exact List.append_nil _
      · rfl
    · rw [State.onCount_ports, PerPort.get_set]
      split
      · next hq => rw [hq]; rfl
      · rfl
  · rfl

theorem advance_descriptors (s : State) (n : Nat) (p : Port) :
    ((s.advance n).ports.get p).descriptors = (s.ports.get p).descriptors := by
  unfold PortUnit.descriptors
  rw [advance_inFlight, advance_port]
  rfl

theorem refsHold_empty (hs : s.store.frames = []) (hp : ∀ p, (s.ports.get p).descriptors = []) : s.RefsHold [] := by
  have : s.descriptors = [] := List.flatMap_eq_nil_iff.2 fun p _ => hp p
  rw [State.RefsHold, hs, this]
  exact RefsOk.empty

end

theorem refsHold_closed : WorkClosed fun ds _ s => s.RefsHold ds where
  same hw := refsHold_keep hw.store hw.ports
  advance n := refsHold_same rfl fun p => advance_descriptors ..
  count p _ := refsHold_onPort p (List.Perm.refl _)
  records _ _ := refsHold_keep rfl rfl
  marks _ := refsHold_keep rfl rfl
  raiseAt _ _ _ _ _ _ := refsHold_keep rfl rfl
  poolMark _ := refsHold_keep rfl rfl
  withSink _ := refsHold_keep rfl rfl
  reportDue _ _ := refsHold_keep rfl rfl
  acknowledge _ := refsHold_keep rfl rfl
  queueOverflow := refsHold_keep rfl rfl
  retransmit {_ _ s} := refsHold_keep (retransmit_rest s).2.2.1 (retransmit_rest s).1
  buildReport {_ _ s} := refsHold_keep (buildReport_rest s).2.2.1 (buildReport_rest s).1
  appendOwn {_ _ s} f _ := refsHold_keep (appendOwn_rest s f).2.2.1 (appendOwn_rest s f).2.1
  clearOwn := refsHold_keep rfl rfl
  dequeue {_ _ s} p q gone _ hperm h := by
    refine refsHold_move p ?_ h
    rw [PortUnit.descriptors, PortUnit.descriptors, ← List.append_assoc]
    exact hperm.append_right _
  release d h := RefsOk.release h
  startData {_ _ s} p c d rest ht _ hq h := by
    refine refsHold_onPort p ?_ h
    rw [descriptors_of_idle ht]
    refine (Quad.perm_set (i := c) (gone := [d]) (l := rest) (hq ▸ List.Perm.refl _)).trans ?_
    exact List.perm_append_comm
  startOwn {_ _ s} f rest ht _ _ h := by
    refine refsHold_onPort (s := s.setOwn rest) .t ?_ (refsHold_keep (s := s) rfl rfl h)
    have hd := descriptors_of_idle (u := s.ports.get .t) ht
    rw [State.setOwn_ports, hd]
    exact List.Perm.of_eq (List.append_nil _).symm
  offerSync {_ _ s} p := refsHold_same (by rw [(offerSync_rest s p).2.2.2.2]) fun q => offerSync_descriptors ..
  endTx {_ _ s} p h := by
    refine refsHold_move p ?_ h
    refine List.perm_append_comm.trans (List.Perm.append_left _ ?_)
    exact List.Perm.of_eq (List.append_nil _).symm
  accept e x payload held h := refsHold_acceptFrame e x payload held h
  receive p _ _ _ _ := refsHold_onPort p (List.Perm.refl _)
  claim {_ _ s} p need _ _ h := refsHold_onPort (s := s.setStore { s.store with free := s.store.free - need }) p (List.Perm.refl _)
    (refsHold_same (s := s) rfl (fun _ => rfl) h)
  endRx p := refsHold_onPort p (List.Perm.refl _)
  endUnstored p _ := refsHold_onPort p (List.Perm.refl _)
  returnBlocks _ := refsHold_same rfl fun _ => rfl
  setAdmin p _ _ _ _ := refsHold_onPort p (List.Perm.refl _)
  linkUp p := refsHold_onPort p (List.Perm.refl _)
  linkDown p _ _ _ := refsHold_onPort p (List.Perm.refl _)
  warmRestart _ := refsHold_empty rfl fun p => by
    show ((_ : PerPort PortUnit).map PortUnit.warm |>.get p).descriptors = []
    rw [PerPort.get_map]
    rfl
  reset := refsHold_keep rfl rfl

theorem refInv_iff {s : State} : s.RefInv ↔ s.RefsHold [] := by
  have hcount (f : StoredFrame) : (s.descriptors.filter fun d => d.frame = f.ref).length = refCount s.descriptors f.ref :=
    (List.countP_eq_length_filter ..).symm
  rw [State.RefInv, State.RefsHold, List.nil_append]
  simp only [hcount]
  exact ⟨fun ⟨h1, h2, h3⟩ => ⟨h1, h2, h3⟩, fun ⟨h1, h2, h3⟩ => ⟨h1, h2, h3⟩⟩

/-- Settles O58: the condition with no reference in hand is kept by the operations of a step, a natural cycle start and a release among them. -/
theorem everyStepKeepsTheReferences : Obligations.EveryStepKeepsTheReferences := by
  intro s t hs he
  rw [refInv_iff] at *
  refine refsHold_closed.step (fun a b l q => ?_) (fun q => ?_) hs he
  · refine refsHold_empty rfl fun p => ?_
    show ((l.map PortUnit.powerOn).get p).descriptors = []
    rw [PerPort.get_map]
    rfl
  · exact refsHold_closed.cycleStart_of_swap (refsHold_keep rfl rfl) fun _ => refsHold_keep rfl rfl

end Sys2Proof.Machine
end

section
/-! The choice of an egress unit (R11 to R18): what it may start by mode and window, the class queues one by one, and what it leaves alone. -/

namespace Sys2Proof.Machine

open Sys2Proof

/-! ### Stale heads (R15, R73, R74) -/

/-- The accounting of one stale descriptor: its reference, LATE of the port and of its stream, and the report of one (R15, R74). -/
def State.accountStale (s : State) (c : Configuration) (k : Word) (p : Port) (d : Descriptor) : State :=
  (s.countLate c p d).reportLate c p d.stream d.reportLate k 1

theorem dropStale_eq (s : State) (p : Port) (c : Fin 4) : s.dropStale p c =
    (((s.ports.get p).queues.get c).takeWhile fun d => !d.live s.clock.number).foldl
      (fun t d => t.accountStale s.cfg.active s.clock.number p d)
      (s.onPort p fun u =>
        { u with queues := u.queues.set c (((s.ports.get p).queues.get c).dropWhile fun d => !d.live s.clock.number) }) := rfl

/-- A state whose stale head of a class queue is removed and accounted (R15). -/
def State.dropHead (s : State) (p : Port) (c : Fin 4) (d : Descriptor) (behind : List Descriptor) : State :=
  (s.onPort p fun u => { u with queues := u.queues.set c behind }).accountStale s.cfg.active s.clock.number p d

theorem accountStale_kept (s : State) (c : Configuration) (k : Word) (p : Port) (d : Descriptor) :
    Kept s (s.accountStale c k p d) := (countLate_kept ..).trans (reportLate_kept ..)

theorem accountStale_ports (s : State) (c : Configuration) (k : Word) (p : Port) (d : Descriptor) :
    (s.accountStale c k p d).ports =
      s.ports.set p { s.ports.get p with count := { (s.ports.get p).count with late := (s.ports.get p).count.late + 1 } } := by
  rw [State.accountStale, (reportLate_rest ..).1, countLate_ports]

/-- What the accounting of a stale descriptor leaves alone. -/
theorem accountStale_rest (s : State) (c : Configuration) (k : Word) (p : Port) (d : Descriptor) :
    (s.accountStale c k p d).own = s.own ∧ (s.accountStale c k p d).control = s.control ∧
    (s.accountStale c k p d).aux = s.aux ∧ (s.accountStale c k p d).store = s.store.release d.frame := by
  obtain ⟨-, hstore, hown, hcontrol, haux, -⟩ := reportLate_rest (s.countLate c p d) c p d.stream d.reportLate k 1
  obtain ⟨cown, ccontrol, caux, -⟩ := countLate_foldl_rest c p [d] s
  refine ⟨hown.trans cown, hcontrol.trans ccontrol, haux.trans caux, hstore.trans ?_⟩
  unfold State.countLate
  dsimp only
  split <;> rfl

/-- A queue is put in place before the accounting of a descriptor or after it. -/
theorem accountStale_onQueue (s : State) (c : Configuration) (k : Word) (p : Port) (d : Descriptor) (i : Fin 4) (l : List Descriptor) :
    (s.accountStale c k p d).onPort p (fun u => { u with queues := u.queues.set i l }) =
      (s.onPort p fun u => { u with queues := u.queues.set i l }).accountStale c k p d := by
  have hcount : (s.countLate c p d).onPort p (fun u => { u with queues := u.queues.set i l }) =
      (s.onPort p fun u => { u with queues := u.queues.set i l }).countLate c p d := by
    simp only [State.countLate]
    split <;> simp [State.onPort, State.onCount, State.release, State.onRecord, State.setRecords, State.setClassifier, State.setStore,
      PerPort.set_set]
  unfold State.accountStale
  rw [← hcount]
  generalize s.countLate c p d = t
  unfold State.reportLate
  simp only [State.onPort_classifier]
  split
  · rfl
  · split <;> rfl

section
variable {s : State} {p : Port} {c : Fin 4}

/-- Where the head is live, or there is none, nothing is stale. -/
theorem dropStale_of_live (h : ∀ d behind, (s.ports.get p).queues.get c = d :: behind → d.live s.clock.number = true) :
    s.dropStale p c = s := by
  rw [dropStale_eq]
  have hq : ((s.ports.get p).queues.get c).takeWhile (fun d => !d.live s.clock.number) = [] ∧
      ((s.ports.get p).queues.get c).dropWhile (fun d => !d.live s.clock.number) = (s.ports.get p).queues.get c := by
    cases hq : (s.ports.get p).queues.get c with
    | nil => exact ⟨rfl, rfl⟩
    | cons d behind => simp [h d behind hq]
  rw [hq.1, hq.2]
  have hset : (s.ports.get p).queues.set c ((s.ports.get p).queues.get c) = (s.ports.get p).queues := by
    refine Quad.ext_get fun i => ?_
    rw [Quad.get_set]
    split
    · next hi => rw [hi]
    · rfl
  show s.onPort p _ = s
  unfold State.onPort
  dsimp only
  rw [hset, PerPort.set_get]

theorem dropHead_kept (d : Descriptor) (behind : List Descriptor) : Kept s (s.dropHead p c d behind) :=
  (onPort_kept ..).trans (accountStale_kept ..)

theorem dropHead_ports (d : Descriptor) (behind : List Descriptor) : (s.dropHead p c d behind).ports =
    s.ports.set p
      { s.ports.get p with
        queues := (s.ports.get p).queues.set c behind
        count := { (s.ports.get p).count with late := (s.ports.get p).count.late + 1 } } := by
  rw [State.dropHead, accountStale_ports]
  simp [PerPort.set_set]

theorem dropHead_queue (d : Descriptor) (behind : List Descriptor) (x : Fin 4) :
    ((s.dropHead p c d behind).ports.get p).queues.get x = if x = c then behind else (s.ports.get p).queues.get x := by
  rw [dropHead_ports, PerPort.get_set, if_pos rfl]
  exact Quad.get_set ..

/-- Removing the stale heads one by one: the first, and then the rest. -/
theorem dropStale_of_stale {d : Descriptor} {behind : List Descriptor} (hq : (s.ports.get p).queues.get c = d :: behind)
    (hd : d.live s.clock.number = false) : s.dropStale p c = (s.dropHead p c d behind).dropStale p c := by
  have hk := dropHead_kept (s := s) (p := p) (c := c) d behind
  have hqueue : ((s.dropHead p c d behind).ports.get p).queues.get c = behind := by rw [dropHead_queue, if_pos rfl]
  rw [dropStale_eq, dropStale_eq, hqueue, hk.cfg, hk.clock, hq, List.takeWhile_cons_of_pos (by simp [hd]),
    List.dropWhile_cons_of_pos (by simp [hd]), List.foldl_cons]
  congr 1
  rw [State.dropHead, accountStale_onQueue]
  congr 1
  have hset (l : List Descriptor) : ((s.ports.get p).queues.set c behind).set c l = (s.ports.get p).queues.set c l := by
    refine Quad.ext_get fun i => ?_
    rw [Quad.get_set, Quad.get_set, Quad.get_set]
    split <;> rfl
  simp [State.onPort, PerPort.set_set, hset]

/-- What the removal of stale heads leaves alone. -/
theorem dropStale_rest (s : State) (p : Port) (c : Fin 4) :
    (s.dropStale p c).aux = s.aux ∧ (∀ q, q ≠ p → (s.dropStale p c).ports.get q = s.ports.get q) ∧
    ((s.dropStale p c).ports.get p).queues =
      (s.ports.get p).queues.set c (((s.ports.get p).queues.get c).dropWhile fun d => !d.live s.clock.number) := by
  rw [dropStale_eq]
  generalize ht : (s.onPort p fun u =>
    { u with queues := u.queues.set c (((s.ports.get p).queues.get c).dropWhile fun d => !d.live s.clock.number) }) = t
  have hfold (l : List Descriptor) (t : State) :
      (l.foldl (fun t d => t.accountStale s.cfg.active s.clock.number p d) t).aux = t.aux ∧
      (∀ q, q ≠ p → (l.foldl (fun t d => t.accountStale s.cfg.active s.clock.number p d) t).ports.get q = t.ports.get q) ∧
      ((l.foldl (fun t d => t.accountStale s.cfg.active s.clock.number p d) t).ports.get p).queues = (t.ports.get p).queues := by
    induction l generalizing t with
    | nil => exact ⟨rfl, fun _ _ => rfl, rfl⟩
    | cons d l ih =>
      obtain ⟨haux, hother, hqueues⟩ := ih (t.accountStale s.cfg.active s.clock.number p d)
      have hports := accountStale_ports t s.cfg.active s.clock.number p d
      refine ⟨haux.trans (accountStale_rest ..).2.2.1, fun q hq => (hother q hq).trans ?_, hqueues.trans ?_⟩
      · rw [hports, PerPort.get_set, if_neg hq]
      · rw [hports, PerPort.get_set, if_pos rfl]
  obtain ⟨haux, hother, hqueues⟩ := hfold (((s.ports.get p).queues.get c).takeWhile fun d => !d.live s.clock.number) t
  subst ht
  refine ⟨haux, fun q hq => (hother q hq).trans ?_, hqueues.trans ?_⟩
  · rw [State.onPort_ports, PerPort.get_set, if_neg hq]
  · rw [State.onPort_ports, PerPort.get_set, if_pos rfl]

/-- A class queue without its stale heads, and the others as they were. -/
theorem dropStale_queue (s : State) (p : Port) (c x : Fin 4) : ((s.dropStale p c).ports.get p).queues.get x =
    if x = c then ((s.ports.get p).queues.get c).dropWhile fun d => !d.live s.clock.number else (s.ports.get p).queues.get x := by
  rw [(dropStale_rest ..).2.2]
  exact Quad.get_set ..

/-- The head that stands after the removal is live. -/
theorem dropStale_head {d : Descriptor} {behind : List Descriptor}
    (h : ((s.dropStale p c).ports.get p).queues.get c = d :: behind) :
    d.live s.clock.number = true ∧ d ∈ (s.ports.get p).queues.get c := by
  rw [dropStale_queue, if_pos rfl] at h
  refine ⟨?_, (List.dropWhile_sublist _).subset (h ▸ List.mem_cons_self ..)⟩
  have := List.head?_dropWhile_not (fun d : Descriptor => !d.live s.clock.number) ((s.ports.get p).queues.get c)
  rw [h] at this
  simpa using this

end

/-! ### The class queues (R12, R17) -/

/-- A class that a choice passes over: its queue is empty, or its live head does not fit. -/
def State.Spent (s : State) (fits : Nat → Bool) (p : Port) (c : Fin 4) : Prop :=
  ∀ d behind, (s.ports.get p).queues.get c = d :: behind → d.live s.clock.number = true ∧ fits (occupancy d.length) = false

section
variable {s : State} {fits : Nat → Bool} {p : Port} {c : Fin 4} {cs : List (Fin 4)}

theorem tryClasses_cons_of_spent (h : s.Spent fits p c) : s.tryClasses fits p (c :: cs) = s.tryClasses fits p cs := by
  rw [State.tryClasses, dropStale_of_live fun d behind hq => (h d behind hq).1]
  split
  · rfl
  · next d rest hq => rw [if_neg (by simp [(h d rest hq).2])]

/-- The first class whose live head fits is started (R12, R17). -/
theorem tryClasses_start {d : Descriptor} {behind : List Descriptor} (hcs : cs.Pairwise (· < ·)) (hc : c ∈ cs)
    (hspent : ∀ x ∈ cs, x < c → s.Spent fits p x) (hq : (s.ports.get p).queues.get c = d :: behind)
    (hlive : d.live s.clock.number = true) (hfits : fits (occupancy d.length) = true) :
    s.tryClasses fits p cs = s.startData p c d behind := by
  induction cs with
  | nil => cases hc
  | cons x cs ih =>
    obtain ⟨hx, hcs⟩ := List.pairwise_cons.1 hcs
    rcases List.mem_cons.1 hc with rfl | hc
    · have hsame := dropStale_of_live (s := s) (p := p) (c := c) fun e l hl => by
        rw [hq] at hl
        cases hl
        exact hlive
      simp only [State.tryClasses, hsame, hq, if_pos hfits]
    · rw [tryClasses_cons_of_spent (hspent x (List.mem_cons_self ..) (hx c hc))]
      exact ih hcs hc fun y hy => hspent y (List.mem_cons_of_mem _ hy)

/-- A stale head met in a class that the choice comes to is removed, and the choice goes on as on the state without it (R15). -/
theorem tryClasses_dropHead {d : Descriptor} {behind : List Descriptor} (hcs : cs.Pairwise (· < ·)) (hc : c ∈ cs)
    (hspent : ∀ x ∈ cs, x < c → s.Spent fits p x) (hq : (s.ports.get p).queues.get c = d :: behind)
    (hstale : d.live s.clock.number = false) :
    s.tryClasses fits p cs = (s.dropHead p c d behind).tryClasses fits p cs := by
  induction cs with
  | nil => cases hc
  | cons x cs ih =>
    obtain ⟨hx, hcs⟩ := List.pairwise_cons.1 hcs
    rcases List.mem_cons.1 hc with rfl | hc
    · simp only [State.tryClasses, dropStale_of_stale hq hstale]
    · have hxc := hx c hc
      have hspentx := hspent x (List.mem_cons_self ..) hxc
      have hdropped : (s.dropHead p c d behind).Spent fits p x := by
        intro e l hl
        rw [dropHead_queue, if_neg hxc.ne] at hl
        rw [(dropHead_kept d behind).clock]
        exact hspentx e l hl
      rw [tryClasses_cons_of_spent hspentx, tryClasses_cons_of_spent hdropped]
      exact ih hcs hc fun y hy => hspent y (List.mem_cons_of_mem _ hy)

/-- What the class queues can start: nothing, or the live head that fits of one of them (R12, R15, R17). -/
theorem tryClasses_tx (fits : Nat → Bool) (p : Port) (cs : List (Fin 4)) (s : State) :
    ((s.tryClasses fits p cs).ports.get p).tx = (s.ports.get p).tx ∨
    ∃ d, ∃ c ∈ cs, d ∈ (s.ports.get p).queues.get c ∧ d.live s.clock.number = true ∧ fits (occupancy d.length) = true ∧
      ((s.tryClasses fits p cs).ports.get p).tx = .busy (.data d) (occupancy d.length) (occupancy d.length) := by
  induction cs generalizing s with
  | nil => exact .inl rfl
  | cons c cs ih =>
    have hnext :
        (((s.dropStale p c).tryClasses fits p cs).ports.get p).tx = (s.ports.get p).tx ∨
        ∃ d, ∃ x ∈ c :: cs, d ∈ (s.ports.get p).queues.get x ∧ d.live s.clock.number = true ∧ fits (occupancy d.length) = true ∧
          (((s.dropStale p c).tryClasses fits p cs).ports.get p).tx = .busy (.data d) (occupancy d.length) (occupancy d.length) := by
      rcases ih (s.dropStale p c) with h | ⟨d, x, hx, hd, hlive, hfits, htx⟩
      · exact .inl (h.trans (dropStale_tx ..))
      · rw [(dropStale_kept s p c).clock] at hlive
        refine .inr ⟨d, x, List.mem_cons_of_mem _ hx, ?_, hlive, hfits, htx⟩
        rw [dropStale_queue] at hd
        split at hd
        · next he => exact he ▸ (List.dropWhile_sublist _).subset hd
        · exact hd
    rw [State.tryClasses]
    split
    · exact hnext
    · next d rest hq =>
      split
      · next hfits =>
        obtain ⟨hlive, hmem⟩ := dropStale_head hq
        refine .inr ⟨d, c, List.mem_cons_self .., hmem, hlive, hfits, ?_⟩
        rw [State.startData, State.onPort_ports, PerPort.get_set, if_pos rfl]
      · exact hnext

theorem Spent.dropStale (h : s.Spent fits p c) (x : Fin 4) : (s.dropStale p x).Spent fits p c := by
  intro d behind hq
  rw [(dropStale_kept s p x).clock]
  rw [dropStale_queue] at hq
  split at hq
  · next hx =>
    subst hx
    cases hqueue : (s.ports.get p).queues.get c with
    | nil =>
      rw [hqueue] at hq
      cases hq
    | cons e l =>
      obtain ⟨hlive, hfits⟩ := h e l hqueue
      rw [hqueue, List.dropWhile_cons_of_neg (by simp [hlive])] at hq
      cases hq
      exact ⟨hlive, hfits⟩
  · exact h d behind hq

/-- A choice that starts no data frame has passed over every class it may serve. -/
theorem tryClasses_spent (fits : Nat → Bool) (p : Port) (cs : List (Fin 4)) (s : State)
    (hidle : ((s.tryClasses fits p cs).ports.get p).tx = .idle) :
    ∀ c, c ∈ cs ∨ s.Spent fits p c → (s.tryClasses fits p cs).Spent fits p c := by
  induction cs generalizing s with
  | nil => exact fun c hc => hc.resolve_left (List.not_mem_nil)
  | cons x cs ih =>
    rw [State.tryClasses] at hidle ⊢
    have hrest (hx : (s.dropStale p x).Spent fits p x)
        (hidle : (((s.dropStale p x).tryClasses fits p cs).ports.get p).tx = .idle) :
        ∀ c, c ∈ x :: cs ∨ s.Spent fits p c → ((s.dropStale p x).tryClasses fits p cs).Spent fits p c := by
      intro c hc
      refine ih _ hidle c ?_
      rcases hc with hc | hc
      · rcases List.mem_cons.1 hc with rfl | hc
        · exact .inr hx
        · exact .inl hc
      · exact .inr (Spent.dropStale hc x)
    split at hidle
    · next hq =>
      exact hrest (fun d behind hd => by rw [hq] at hd; cases hd) hidle
    · next d rest hq =>
      split at hidle
      · rw [State.startData, State.onPort_ports, PerPort.get_set, if_pos rfl] at hidle
        cases hidle
      · next hfits =>
        rw [if_neg hfits]
        refine hrest (fun e l hl => ?_) hidle
        rw [hq] at hl
        cases hl
        rw [(dropStale_kept s p x).clock]
        exact ⟨(dropStale_head hq).1, by simpa using hfits⟩

end

/-! ### What a choice may start, by mode and window (R7, R12 to R18) -/

/-- Whether the choice of a port serves a class: every class under PASS, those of the open window while enforcing (R12). -/
def State.admitsClass (s : State) (p : Port) (c : Fin 4) : Prop :=
  s.mode = .pass ∨ s.mode = .enforcing ∧ ∃ w, s.openWindow p = some w ∧ w.classes.get c = true

/-- Whether the choice of a port serves the own queue: while enforcing where the open window admits class 0 (R18). -/
def State.admitsOwn (s : State) (p : Port) : Prop :=
  s.mode ≠ .enforcing ∨ ∃ w, s.openWindow p = some w ∧ w.classes.get 0 = true

/-- Whether a payload of so many bytes may start: while enforcing where the open window holds its occupancy (R14, R17). -/
def State.holds (s : State) (p : Port) (n : Nat) : Prop :=
  s.mode ≠ .enforcing ∨ ∃ w, s.openWindow p = some w ∧ s.clock.timer + n + 24 ≤ w.stop

/-- The terms on which a choice serves its candidates. -/
structure ChoiceTerms (s : State) (p : Port) (fits : Nat → Bool) (own : Bool) (cs : List (Fin 4)) : Prop where
  listed : cs.Pairwise (· < ·)
  classes : ∀ c, c ∈ cs ↔ s.admitsClass p c
  own : own = true ↔ s.admitsOwn p
  fits : ∀ n, fits (occupancy n) = true ↔ s.holds p n

theorem mem_classesOf {x : Quad Bool} {c : Fin 4} : c ∈ classesOf x ↔ x.get c = true := by
  have : c ∈ ([0, 1, 2, 3] : List (Fin 4)) := by fin_cases c <;> decide
  simp [classesOf, this]

/-- The terms of a port's choice, of occupancies, the own queue and the classes to serve; none while enforcing with no open window (R12 to R18). -/
def State.terms (s : State) (p : Port) : Option ((Nat → Bool) × Bool × List (Fin 4)) :=
  match s.mode with
  | .enforcing => (s.openWindow p).map fun w => (fun occ => s.clock.timer + occ ≤ w.stop, w.classes.get 0, classesOf w.classes)
  | .pass => some (fun _ => true, true, [0, 1, 2, 3])
  | .block => some (fun _ => true, true, [])

theorem terms_congr {s t : State} (hk : Kept s t) (ho : t.aux.openedAt = s.aux.openedAt) (p : Port) : t.terms p = s.terms p := by
  simp only [State.terms, hk.mode, hk.openWindow ho, hk.clock]

theorem terms_none {s : State} {p : Port} (h : s.terms p = none) : s.mode = .enforcing ∧ s.openWindow p = none := by
  unfold State.terms at h
  split at h
  · next hm => exact ⟨hm, Option.map_eq_none_iff.1 h⟩
  · cases h
  · cases h

theorem terms_some {s : State} {p : Port} {fits : Nat → Bool} {own : Bool} {cs : List (Fin 4)}
    (h : s.terms p = some (fits, own, cs)) : ChoiceTerms s p fits own cs := by
  unfold State.terms at h
  cases hm : s.mode with
  | enforcing =>
    rw [hm] at h
    obtain ⟨w, hw, he⟩ := Option.map_eq_some_iff.1 h
    cases he
    refine ⟨List.Pairwise.filter _ (by decide), fun c => ?_, ?_, fun n => ?_⟩
    · rw [mem_classesOf]
      simp [State.admitsClass, hm, hw]
    · simp [State.admitsOwn, hm, hw]
    · rw [decide_eq_true_iff]
      simp [State.holds, hm, hw, occupancy, Config.frameOverhead, Nat.add_assoc]
  | pass =>
    rw [hm] at h
    cases h
    refine ⟨by decide, fun c => ?_, ?_, fun n => ?_⟩
    · have : c ∈ ([0, 1, 2, 3] : List (Fin 4)) := by fin_cases c <;> decide
      simp [State.admitsClass, hm, this]
    · simp [State.admitsOwn, hm]
    · simp [State.holds, hm]
  | block =>
    rw [hm] at h
    cases h
    refine ⟨List.Pairwise.nil, fun c => ?_, ?_, fun n => ?_⟩
    · simp [State.admitsClass, hm]
    · simp [State.admitsOwn, hm]
    · simp [State.holds, hm]

/-- The choice of an idle port that is UP serves its candidates on its terms. -/
theorem choose_eq {s : State} {p : Port} (ht : (s.ports.get p).tx = .idle) (hl : (s.ports.get p).link = true) :
    s.choose p = (s.terms p).elim s fun x => s.serve x.1 x.2.1 x.2.2 p := by
  have hc : ((s.ports.get p).tx.isIdle && (s.ports.get p).link) = true := by simp [ht, hl, Transmitter.isIdle]
  unfold State.choose State.terms
  rw [if_pos hc]
  cases s.mode with
  | enforcing =>
    dsimp only
    cases s.openWindow p <;> rfl
  | pass => rfl
  | block => rfl

/-- What a choice of an idle port that is UP comes to: nothing while enforcing with no open window, and otherwise its candidates in order. -/
theorem choose_cases {s : State} {p : Port} (ht : (s.ports.get p).tx = .idle) (hl : (s.ports.get p).link = true) :
    (s.mode = .enforcing ∧ s.openWindow p = none ∧ s.choose p = s) ∨
    ∃ fits own cs, ChoiceTerms s p fits own cs ∧ s.choose p = s.serve fits own cs p := by
  rw [choose_eq ht hl]
  cases h : s.terms p with
  | none =>
    obtain ⟨hm, hw⟩ := terms_none h
    exact .inl ⟨hm, hw, rfl⟩
  | some x => exact .inr ⟨x.1, x.2.1, x.2.2, terms_some h, rfl⟩

theorem choose_of_busy {s : State} {p : Port} (h : ¬((s.ports.get p).tx = .idle ∧ (s.ports.get p).link = true)) : s.choose p = s := by
  unfold State.choose
  rw [if_neg]
  rw [Bool.and_eq_true_iff, isIdle_iff]
  exact h

/-- A choice serves the own queue first, where it may start its head (R18). -/
theorem serve_own {s : State} {fits : Nat → Bool} {own : Bool} {cs : List (Fin 4)} {f : OwnFrame} {rest : List OwnFrame}
    (ho : s.own = f :: rest) (hown : own = true) (hfits : fits (occupancy f.payload.length) = true) :
    s.serve fits own cs .t = s.startOwn f rest := by
  simp only [State.serve, ho]
  rw [if_pos ⟨trivial, hown, hfits⟩]

/-- Where no own frame may start the classes are served. -/
theorem serve_classes {s : State} {fits : Nat → Bool} {own : Bool} {cs : List (Fin 4)} {p : Port}
    (h : p = .t → ∀ f rest, s.own = f :: rest → own = true → fits (occupancy f.payload.length) = false) :
    s.serve fits own cs p = s.tryClasses fits p cs := by
  unfold State.serve
  split
  · rfl
  · next f rest ho =>
    rw [if_neg]
    rintro ⟨hp, hown, hfits⟩
    rw [h hp f rest ho hown] at hfits
    cases hfits

/-! ### What a choice leaves alone -/

/-- A choice of port `p` touches no other port, the own queue only as T's, and nothing of the model's own fields, of the report or of the slots. -/
structure ChoiceKept (p : Port) (s t : State) : Prop extends Kept s t where
  aux : t.aux = s.aux
  others : ∀ q, q ≠ p → t.ports.get q = s.ports.get q
  own : p ≠ .t → t.own = s.own
  report : t.events.report = s.events.report
  timer : t.events.timer = s.events.timer
  sink : t.events.sink = s.events.sink
  slots : t.slotsTaken = s.slotsTaken

namespace ChoiceKept

variable {p : Port}

theorem refl (s : State) : ChoiceKept p s s := ⟨.refl s, rfl, fun _ _ => rfl, fun _ => rfl, rfl, rfl, rfl, rfl⟩

theorem trans {s t u : State} (h : ChoiceKept p s t) (k : ChoiceKept p t u) : ChoiceKept p s u :=
  ⟨h.toKept.trans k.toKept, k.aux.trans h.aux, fun q hq => (k.others q hq).trans (h.others q hq), fun hp => (k.own hp).trans (h.own hp),
    k.report.trans h.report, k.timer.trans h.timer, k.sink.trans h.sink, k.slots.trans h.slots⟩

end ChoiceKept

theorem slotsTaken_congr {s t : State} (ho : t.own = s.own) (ht : (t.ports.get .t).tx.ownSlots = (s.ports.get .t).tx.ownSlots) :
    t.slotsTaken = s.slotsTaken := by
  rw [slotsTaken_eq, slotsTaken_eq, ho]
  exact congrArg _ ht

theorem reportLate_report (s : State) (c : Configuration) (p : Port) (n : StreamNo) (b : Bool) (k : Word) (m : Nat) :
    (s.reportLate c p n b k m).events.report = s.events.report ∧ (s.reportLate c p n b k m).events.timer = s.events.timer ∧
    (s.reportLate c p n b k m).events.sink = s.events.sink := by
  unfold State.reportLate
  split
  · exact ⟨rfl, rfl, rfl⟩
  · split
    · obtain ⟨hsink, hreport, htimer, -⟩ := raise_rest s.events .streamLate (some p) (noticeStream n) k (wordOf m)
      exact ⟨hreport, htimer, hsink⟩
    · exact ⟨rfl, rfl, rfl⟩

theorem dropStale_choiceKept (s : State) (p : Port) (c : Fin 4) : ChoiceKept p s (s.dropStale p c) := by
  obtain ⟨haux, hothers, -⟩ := dropStale_rest s p c
  have hevents : (s.dropStale p c).events.report = s.events.report ∧ (s.dropStale p c).events.timer = s.events.timer ∧
      (s.dropStale p c).events.sink = s.events.sink := by
    rw [dropStale_eq]
    refine List.foldlRecOn (motive := fun t : State =>
      t.events.report = s.events.report ∧ t.events.timer = s.events.timer ∧ t.events.sink = s.events.sink) _ _ ⟨rfl, rfl, rfl⟩ ?_
    rintro t ⟨hreport, htimer, hsink⟩ d -
    obtain ⟨r, t', k⟩ := reportLate_report (t.countLate s.cfg.active p d) s.cfg.active p d.stream d.reportLate s.clock.number 1
    have he := (countLate_foldl_rest s.cfg.active p [d] t).2.2.2
    simp only [List.foldl_cons, List.foldl_nil] at he
    rw [he] at r t' k
    exact ⟨r.trans hreport, t'.trans htimer, k.trans hsink⟩
  obtain ⟨hreport, htimer, hsink⟩ := hevents
  exact ⟨dropStale_kept s p c, haux, hothers, fun _ => dropStale_own s p c, hreport, htimer, hsink,
    slotsTaken_congr (dropStale_own s p c) (by rw [dropStale_tx])⟩

/-- A data frame that starts on an idle transmitter. -/
theorem startData_choiceKept {s : State} {p : Port} (ht : (s.ports.get p).tx = .idle) (c : Fin 4) (d : Descriptor)
    (rest : List Descriptor) : ChoiceKept p s (s.startData p c d rest) := by
  refine ⟨startData_kept .., rfl, fun q hq => ?_, fun _ => rfl, rfl, rfl, rfl, slotsTaken_congr rfl ?_⟩
  · rw [State.startData, State.onPort_ports, PerPort.get_set, if_neg hq]
  · rw [State.startData, State.onPort_ports, PerPort.get_set]
    split
    · next hp => rw [hp, ht]; rfl
    · rfl

theorem tryClasses_choiceKept (fits : Nat → Bool) (p : Port) (cs : List (Fin 4)) {s : State} (ht : (s.ports.get p).tx = .idle) :
    ChoiceKept p s (s.tryClasses fits p cs) := by
  induction cs generalizing s with
  | nil => exact .refl s
  | cons c cs ih =>
    have hdrop := dropStale_choiceKept s p c
    have htx := (dropStale_tx s p p c).trans ht
    rw [State.tryClasses]
    split
    · exact hdrop.trans (ih htx)
    · split
      · exact hdrop.trans (startData_choiceKept htx ..)
      · exact hdrop.trans (ih htx)

theorem startOwn_choiceKept {s : State} {f : OwnFrame} {rest : List OwnFrame} (ht : (s.ports.get .t).tx = .idle)
    (ho : s.own = f :: rest) : ChoiceKept .t s (s.startOwn f rest) := by
  refine ⟨startOwn_kept .., rfl, fun q hq => ?_, fun h => absurd rfl h, rfl, rfl, rfl, ?_⟩
  · rw [State.startOwn, State.onPort_ports, PerPort.get_set, if_neg hq]
    rfl
  · have hown : (s.startOwn f rest).own = rest := rfl
    have htx : (s.startOwn f rest).ports.t.tx.ownSlots = 1 := rfl
    have hidle : s.ports.t.tx.ownSlots = 0 := congrArg Transmitter.ownSlots ht
    rw [slotsTaken_eq, slotsTaken_eq, hown, htx, hidle, ho, List.length_cons]

theorem serve_choiceKept (fits : Nat → Bool) (own : Bool) (cs : List (Fin 4)) {s : State} {p : Port} (ht : (s.ports.get p).tx = .idle) :
    ChoiceKept p s (s.serve fits own cs p) := by
  unfold State.serve
  split
  · exact tryClasses_choiceKept fits p cs ht
  · next f rest ho =>
    split
    · next hp =>
      obtain ⟨rfl, -⟩ := hp
      exact startOwn_choiceKept ht ho
    · exact tryClasses_choiceKept fits p cs ht

theorem choose_choiceKept (s : State) (p : Port) : ChoiceKept p s (s.choose p) := by
  by_cases h : (s.ports.get p).tx = .idle ∧ (s.ports.get p).link = true
  · obtain ⟨ht, hl⟩ := h
    rcases choose_cases ht hl with ⟨-, -, he⟩ | ⟨fits, own, cs, -, he⟩
    · rw [he]
      exact .refl s
    · rw [he]
      exact serve_choiceKept fits own cs ht
  · rw [choose_of_busy h]
    exact .refl s

/-! ### What a choice starts (R12 to R18) -/

/-- Settles O24: another port is not touched (`choose_choiceKept`); the port's own candidates are the head of the own queue, and the class queues by
`tryClasses_tx`, on the terms of its mode and window. -/
theorem choiceStartsOnlyWhatMayStart : Obligations.ChoiceStartsOnlyWhatMayStart := by
  intro s p q f occ rem hbusy
  by_cases hq : q = p
  case neg => exact .inl ((choose_choiceKept s p).others q hq ▸ hbusy)
  subst hq
  by_cases h : (s.ports.get q).tx = .idle ∧ (s.ports.get q).link = true
  case neg => exact .inl (choose_of_busy h ▸ hbusy)
  obtain ⟨ht, hl⟩ := h
  rcases choose_cases ht hl with ⟨-, -, he⟩ | ⟨fits, own, cs, hterms, he⟩
  · exact .inl (he ▸ hbusy)
  refine .inr ⟨rfl, ht, hl, ?_⟩
  by_cases hown : q = .t ∧ ∃ o rest, s.own = o :: rest ∧ own = true ∧ fits (occupancy o.payload.length) = true
  case pos =>
    obtain ⟨rfl, o, rest, ho, hadmits, hfits⟩ := hown
    rw [serve_own ho hadmits hfits] at he
    rw [he] at hbusy
    have htx : ((s.startOwn o rest).ports.get .t).tx = .busy (.own o) (occupancy o.payload.length) (occupancy o.payload.length) := rfl
    rw [htx] at hbusy
    cases hbusy
    refine ⟨rfl, .inr ⟨o, rest, rfl, rfl, ho, by rw [he]; rfl, rfl, fun hm => ?_⟩⟩
    rcases hterms.own.1 hadmits with h | ⟨w, hw, hcls⟩
    · exact absurd hm h
    · rcases (hterms.fits _).1 hfits with h | ⟨v, hv, hroom⟩
      · exact absurd hm h
      · rw [hw] at hv
        cases hv
        exact ⟨w, hw, hcls, hroom⟩
  case neg =>
    have hclasses : s.serve fits own cs q = s.tryClasses fits q cs := serve_classes fun hp o rest ho hadmits => by
      by_contra hfits
      exact hown ⟨hp, o, rest, ho, hadmits, by simpa using hfits⟩
    rw [he, hclasses] at hbusy
    rcases tryClasses_tx fits q cs s with hsame | ⟨d, c, hc, hd, hlive, hfits, htx⟩
    · rw [hsame, ht] at hbusy
      cases hbusy
    · rw [htx] at hbusy
      cases hbusy
      refine ⟨rfl, .inl ⟨d, c, rfl, hd, rfl, by simpa [Descriptor.live] using hlive, ?_⟩⟩
      rcases (hterms.classes c).1 hc with hpass | ⟨hm, w, hw, hcls⟩
      · exact .inl hpass
      · rcases (hterms.fits _).1 hfits with h | ⟨v, hv, hroom⟩
        · exact absurd hm h
        · rw [hw] at hv
          cases hv
          exact .inr ⟨hm, w, hw, hcls, hroom⟩

end Sys2Proof.Machine
end

section
/-! The order of a choice (R12, R14, R15, R17, R18), and what the removal of one stale head leaves (R73, R74). -/

namespace Sys2Proof.Machine

open Sys2Proof

/-! ### The records and notices after one stale descriptor -/

theorem streamRecord_updateRecord_other {f : StreamRecord → StreamRecord} (hf : ∀ r, (f r).stream = r.stream) {m n : StreamNo}
    (h : m ≠ n) (rs : List StreamRecord) : streamRecord (updateRecord n f rs) m = streamRecord rs m := by
  induction rs with
  | nil => rfl
  | cons r rs ih =>
    simp only [streamRecord, updateRecord] at ih
    by_cases hr : r.stream = n
    · have hm : ¬n = m := fun he => h he.symm
      simp [streamRecord, updateRecord, hr, hf, hm, ih]
    · simp [streamRecord, updateRecord, hr, List.find?_cons, ih]

/-- A change of the record of one stream, read under any number. -/
theorem streamRecord_updateRecord {f : StreamRecord → StreamRecord} (hf : ∀ r, (f r).stream = r.stream) (m n : StreamNo)
    (rs : List StreamRecord) : streamRecord (updateRecord n f rs) m = (streamRecord rs m).map fun r => if m = n then f r else r := by
  by_cases h : m = n
  · subst h
    simp [streamRecord_updateRecord_same hf]
  · simp [streamRecord_updateRecord_other hf h, h]

theorem updateRecord_comp {f : StreamRecord → StreamRecord} (hf : ∀ r, (f r).stream = r.stream) (g : StreamRecord → StreamRecord)
    (n : StreamNo) (rs : List StreamRecord) : updateRecord n g (updateRecord n f rs) = updateRecord n (fun r => g (f r)) rs := by
  simp only [updateRecord, List.map_map]
  refine List.map_congr_left fun r _ => ?_
  by_cases h : r.stream = n <;> simp [h, hf]

/-- Whether the accounting of a stale descriptor raises STREAM_LATE: it is flagged, its stream has an entry and a record, and the record's LATE mark is
not in effect (R74). -/
def State.reportsLate (s : State) (c : Configuration) (k : Word) (d : Descriptor) : Prop :=
  d.reportLate = true ∧ streamEntry c d.stream ≠ none ∧
    ∃ r, streamRecord s.classifier.records d.stream = some r ∧ r.lateMark ≠ some k

section
variable {s : State} {c : Configuration} {k : Word} {p : Port} {d : Descriptor}

theorem countLate_classifier (s : State) (c : Configuration) (p : Port) (d : Descriptor) : (s.countLate c p d).classifier =
    if (streamEntry c d.stream).isSome then
      { s.classifier with records := updateRecord d.stream (fun r => { r with late := r.late + 1 }) s.classifier.records }
    else s.classifier := by
  unfold State.countLate
  dsimp only
  split <;> rfl

/-- A descriptor of a stream without an entry is counted for the port alone (R73). -/
theorem accountStale_noEntry (h : streamEntry c d.stream = none) :
    (s.accountStale c k p d).classifier = s.classifier ∧ (s.accountStale c k p d).events = s.events := by
  have hc := countLate_classifier s c p d
  have he := (countLate_foldl_rest c p [d] s).2.2.2
  rw [if_neg (by simp [h])] at hc
  unfold State.accountStale State.reportLate
  split
  · exact ⟨hc, he⟩
  · rw [if_neg (by simp [h])]
    exact ⟨hc, he⟩

/-- The stream's LATE counts the descriptor, and its mark is set and the report raised where it is due (R73, R74). -/
theorem accountStale_entry (h : streamEntry c d.stream ≠ none) :
    (s.reportsLate c k d →
      (s.accountStale c k p d).classifier.records =
        updateRecord d.stream (fun r => { r with late := r.late + 1, lateMark := some k }) s.classifier.records ∧
      (s.accountStale c k p d).events = s.events.raise .streamLate (some p) (noticeStream d.stream) k 1) ∧
    (¬s.reportsLate c k d →
      (s.accountStale c k p d).classifier.records =
        updateRecord d.stream (fun r => { r with late := r.late + 1 }) s.classifier.records ∧
      (s.accountStale c k p d).events = s.events) := by
  have hsome : (streamEntry c d.stream).isSome = true := Option.isSome_iff_ne_none.2 h
  have hc : (s.countLate c p d).classifier.records = updateRecord d.stream (fun r => { r with late := r.late + 1 }) s.classifier.records := by
    rw [countLate_classifier, if_pos hsome]
  have he : (s.countLate c p d).events = s.events := (countLate_foldl_rest c p [d] s).2.2.2
  have hrecord := streamRecord_updateRecord_same (f := fun r => { r with late := r.late + 1 }) (fun _ => rfl) d.stream s.classifier.records
  rw [← hc] at hrecord
  unfold State.accountStale State.reportLate
  cases hr : streamRecord s.classifier.records d.stream with
  | none =>
    rw [hr] at hrecord
    simp only [hrecord, Option.map_none]
    refine ⟨?_, fun _ => ⟨hc, he⟩⟩
    rintro ⟨-, -, r, hr', -⟩
    rw [hr] at hr'
    cases hr'
  | some r =>
    rw [hr] at hrecord
    have hmark : (d.reportLate = true ∧ (streamEntry c d.stream).isSome = true ∧ ¬inEffect r.lateMark k = true) ↔ s.reportsLate c k d := by
      rw [inEffect_iff]
      refine and_congr_right fun _ => and_congr Option.isSome_iff_ne_none ⟨fun hm => ⟨r, hr, hm⟩, ?_⟩
      rintro ⟨x, hx, hm⟩
      rw [hr] at hx
      cases hx
      exact hm
    simp only [hrecord, Option.map_some]
    refine ⟨fun hrep => ?_, fun hno => ?_⟩
    · rw [if_pos (hmark.2 hrep)]
      refine ⟨?_, ?_⟩
      · show updateRecord d.stream _ (s.countLate c p d).classifier.records = _
        rw [hc, updateRecord_comp (f := fun r => { r with late := r.late + 1 }) fun _ => rfl]
      · show (s.countLate c p d).events.raise .streamLate (some p) (noticeStream d.stream) k (wordOf 1) = _
        rw [he]
        rfl
    · rw [if_neg (mt hmark.1 hno)]
      exact ⟨hc, he⟩

end

/-! ### The choice, candidate by candidate -/

section
variable {s : State} {p : Port}

/-- Out of BLOCK, what may start is what fits the window while enforcing. -/
theorem holds_iff (h : s.mode ≠ .block) (n : Nat) : s.holds p n ↔
    (s.mode = .pass ∨ s.mode = .enforcing ∧ ∃ w, s.openWindow p = some w ∧ s.clock.timer + n + 24 ≤ w.stop) := by
  unfold State.holds
  cases hm : s.mode <;> simp_all

theorem admitsOwn_iff (h : s.mode ≠ .block) : s.admitsOwn p ↔ s.admitsClass p 0 := by
  unfold State.admitsOwn State.admitsClass
  cases hm : s.mode <;> simp_all

theorem mode_of_admitsClass {c : Fin 4} (h : s.admitsClass p c) : s.mode ≠ .block := by
  rcases h with h | ⟨h, -⟩ <;> simp [h]

/-- While the mode admits a class there are terms. -/
theorem terms_of_admitsClass {c : Fin 4} (h : s.admitsClass p c) : ∃ fits own cs, s.terms p = some (fits, own, cs) ∧
    ChoiceTerms s p fits own cs ∧ c ∈ cs := by
  cases ht : s.terms p with
  | none =>
    obtain ⟨hm, hw⟩ := terms_none ht
    rcases h with h | ⟨-, w, h, -⟩
    · rw [hm] at h
      cases h
    · rw [hw] at h
      cases h
  | some x => exact ⟨x.1, x.2.1, x.2.2, rfl, terms_some ht, ((terms_some ht).classes c).2 h⟩

/-- A class before the one that the choice comes to, by the terms. -/
theorem spent_of_not_holds {fits : Nat → Bool} {own : Bool} {cs : List (Fin 4)} (ht : ChoiceTerms s p fits own cs) {x : Fin 4}
    (h : ∀ y ys, (s.ports.get p).queues.get x = y :: ys → y.live s.clock.number = true ∧ ¬s.holds p y.length) : s.Spent fits p x :=
  fun d behind hq => ⟨(h d behind hq).1, by
    have := mt (ht.fits d.length).1 (h d behind hq).2
    simpa using this⟩

/-- Where T's own queue may not start, the classes are served. -/
theorem choose_eq_tryClasses {fits : Nat → Bool} {own : Bool} {cs : List (Fin 4)} (hidle : (s.ports.get p).tx = .idle)
    (hl : (s.ports.get p).link = true) (ht : s.terms p = some (fits, own, cs))
    (hown : p = .t → ∀ o rest, s.own = o :: rest → s.admitsOwn p → ¬s.holds p o.payload.length) :
    s.choose p = s.tryClasses fits p cs := by
  have hterms := terms_some ht
  rw [choose_eq hidle hl, ht]
  exact serve_classes fun hp o rest ho hadmits => by
    have := mt (hterms.fits o.payload.length).1 (hown hp o rest ho (hterms.own.1 hadmits))
    simpa using this

/-- Two states that agree on everything but ports, store, classifier and notices. -/
theorem eq_of_kept {s v : State} (hk : Kept s v) (ho : v.own = s.own) (hc : v.control = s.control) (ha : v.aux = s.aux) :
    { v with ports := s.ports, store := s.store, classifier := s.classifier, events := s.events } = s := by
  obtain ⟨h1, h2, h3, h4, h5, h6, h7, h8, h9⟩ := hk
  cases s
  cases v
  simp_all

end

theorem exec_choice {s : State} (hr : s.resetHeld = false) (p : Port) : exec (.choice p) s = .next (settle (s.choose p)) :=
  taken_running hr fun s => s.choose p

/-- Settles O25: with the terms of the mode and window, the class queues in order (`tryClasses_start`), the removal of a stale head
(`tryClasses_dropHead`), and T's own queue first (`serve_own`). -/
theorem choiceCommandStartsTheFirstCandidate : Obligations.ChoiceCommandStartsTheFirstCandidate := by
  refine ⟨fun s p c d behind hr hidle hl hq hlive => ⟨?first, ?block, ?closed⟩, fun s p c d behind hr hidle hl hq hstale => ?stale,
    fun s o rest hr hidle hl ho hroom => ?own⟩
  case first =>
    intro fits admits hadmits hfits hown hbefore
    have hadmits : s.admitsClass p c := hadmits
    have hmode := mode_of_admitsClass hadmits
    obtain ⟨f, own, cs, ht, hterms, hc⟩ := terms_of_admitsClass hadmits
    have hchoose := choose_eq_tryClasses hidle hl ht fun hp o rest ho ha hh =>
      hown hp o rest ho ((admitsOwn_iff hmode).1 ha) ((holds_iff hmode _).1 hh)
    have hspent : ∀ x ∈ cs, x < c → s.Spent f p x := fun x hx hxc => spent_of_not_holds hterms fun y ys hy =>
      have ⟨hyl, hyf⟩ := hbefore x hxc ((hterms.classes x).1 hx) y ys hy
      ⟨hyl, fun hh => hyf ((holds_iff hmode _).1 hh)⟩
    rw [tryClasses_start hterms.listed hc hspent hq hlive ((hterms.fits _).2 ((holds_iff hmode _).2 hfits))] at hchoose
    refine ⟨s.startData p c d behind, ?_, ?_, fun q hqp => ?_, rfl⟩
    · rw [← hchoose]
      exact exec_choice hr p
    · rw [State.startData, State.onPort_ports, PerPort.get_set, if_pos rfl]
      rfl
    · rw [State.startData, State.onPort_ports, PerPort.get_set, if_neg hqp]
  case block =>
    intro hm hp
    refine (exec_choice hr p).trans ?_
    have hterms : s.terms p = some (fun _ => true, true, []) := by simp [State.terms, hm]
    rw [choose_eq_tryClasses hidle hl hterms fun h => absurd h hp]
    rfl
  case closed =>
    intro hm hw
    refine (exec_choice hr p).trans ?_
    have hterms : s.terms p = none := by simp [State.terms, hm, hw]
    rw [choose_eq hidle hl, hterms]
    rfl
  case stale =>
    intro fits admits entry reported hadmits hown hbefore
    have hadmits : s.admitsClass p c := hadmits
    have hmode := mode_of_admitsClass hadmits
    obtain ⟨f, own, cs, ht, hterms, hc⟩ := terms_of_admitsClass hadmits
    have hownHolds : p = .t → ∀ o rest, s.own = o :: rest → s.admitsOwn p → ¬s.holds p o.payload.length := fun hp o rest ho ha hh =>
      hown hp o rest ho ((admitsOwn_iff hmode).1 ha) ((holds_iff hmode _).1 hh)
    have hspent : ∀ x ∈ cs, x < c → s.Spent f p x := fun x hx hxc => spent_of_not_holds hterms fun y ys hy =>
      have ⟨hyl, hyf⟩ := hbefore x hxc ((hterms.classes x).1 hx) y ys hy
      ⟨hyl, fun hh => hyf ((holds_iff hmode _).1 hh)⟩
    have hk := dropHead_kept (s := s) (p := p) (c := c) d behind
    have hports := dropHead_ports (s := s) (p := p) (c := c) d behind
    obtain ⟨hvown, hvcontrol, hvaux, hvstore⟩ :=
      accountStale_rest (s.onPort p fun u => { u with queues := u.queues.set c behind }) s.cfg.active s.clock.number p d
    have hport : (s.dropHead p c d behind).ports.get p =
        { s.ports.get p with
          queues := (s.ports.get p).queues.set c behind
          count := { (s.ports.get p).count with late := (s.ports.get p).count.late + 1 } } := by
      rw [hports, PerPort.get_set, if_pos rfl]
    have hvterms : (s.dropHead p c d behind).terms p = some (f, own, cs) :=
      (terms_congr hk (congrArg Aux.openedAt hvaux) p).trans ht
    have hvown' : (s.dropHead p c d behind).own = s.own := hvown
    have hvchoose : (s.dropHead p c d behind).choose p = (s.dropHead p c d behind).tryClasses f p cs := by
      refine choose_eq_tryClasses (by rw [hport]; exact hidle) (by rw [hport]; exact hl) hvterms fun hp o rest ho ha hh => ?_
      have hva : (s.dropHead p c d behind).admitsOwn p ↔ s.admitsOwn p :=
        (terms_some hvterms).own.symm.trans hterms.own
      have hvh : (s.dropHead p c d behind).holds p o.payload.length ↔ s.holds p o.payload.length :=
        ((terms_some hvterms).fits _).symm.trans (hterms.fits _)
      exact hownHolds hp o rest (hvown' ▸ ho) (hva.1 ha) (hvh.1 hh)
    have hchoose : s.choose p = (s.dropHead p c d behind).choose p := by
      rw [hvchoose, choose_eq_tryClasses hidle hl ht hownHolds]
      exact tryClasses_dropHead hterms.listed hc hspent hq hstale
    have hentry (hn : entry ≠ none) :=
      accountStale_entry (s := s.onPort p fun u => { u with queues := u.queues.set c behind }) (k := s.clock.number) (p := p) hn
    refine ⟨s.dropHead p c d behind, ?_, exec_choice (hk.resetHeld.trans hr) p, hport, fun q hqp => ?_, hvstore, fun hn => ?_,
      fun hn m r hm => ?_, fun hrep => ?_, fun hrep => ?_, eq_of_kept hk hvown hvcontrol hvaux⟩
    · rw [← hchoose]
      exact exec_choice hr p
    · rw [hports, PerPort.get_set, if_neg hqp]
    · exact (accountStale_noEntry hn).1
    · have hread (f : StreamRecord → StreamRecord) (hf : ∀ r, (f r).stream = r.stream)
          (h : (s.dropHead p c d behind).classifier.records = updateRecord d.stream f s.classifier.records) :
          streamRecord (s.dropHead p c d behind).classifier.records m = some (if m = d.stream then f r else r) := by
        rw [h, streamRecord_updateRecord hf, hm]
        rfl
      by_cases hrep : reported
      · exact ⟨_, hread (fun r => { r with late := r.late + 1, lateMark := some s.clock.number }) (fun _ => rfl) ((hentry hn).1 hrep).1, fun hne => if_neg hne,
          fun he => ⟨fun _ => if_pos he, fun hno => absurd hrep hno⟩⟩
      · exact ⟨_, hread (fun r => { r with late := r.late + 1 }) (fun _ => rfl) ((hentry hn).2 hrep).1, fun hne => if_neg hne,
          fun he => ⟨fun h => absurd h hrep, fun _ => if_pos he⟩⟩
    · exact ((hentry hrep.2.1).1 hrep).2
    · by_cases hn : streamEntry s.cfg.active d.stream = none
      · exact (accountStale_noEntry hn).2
      · exact ((hentry hn).2 hrep).2
  case own =>
    rcases hterms : s.terms .t with _ | ⟨f, own, cs⟩
    · obtain ⟨hm, hw⟩ := terms_none hterms
      obtain ⟨w, hw', -⟩ := hroom hm
      rw [hw] at hw'
      cases hw'
    · have ht := terms_some hterms
      have hadmits : s.admitsOwn .t := by
        by_cases hm : s.mode = .enforcing
        · obtain ⟨w, hw, hcls, -⟩ := hroom hm
          exact .inr ⟨w, hw, hcls⟩
        · exact .inl hm
      have hholds : s.holds .t o.payload.length := by
        by_cases hm : s.mode = .enforcing
        · obtain ⟨w, hw, -, hfit⟩ := hroom hm
          exact .inr ⟨w, hw, hfit⟩
        · exact .inl hm
      have hchoose : s.choose .t = s.startOwn o rest := by
        rw [choose_eq (s := s) (p := .t) hidle hl, hterms]
        exact serve_own ho (ht.own.2 hadmits) ((ht.fits _).2 hholds)
      refine ⟨s.startOwn o rest, hchoose ▸ exec_choice hr .t, rfl, rfl, fun q hq => ?_, rfl⟩
      exact (startOwn_choiceKept (s := s) hidle ho).others q hq

end Sys2Proof.Machine
end

section
/-! The steps that follow a command (log entry 2): what all choices asked for leave of one port, drains that complete, and the event unit's work. -/

namespace Sys2Proof.Machine

open Sys2Proof

/-! ### Every choice asked for -/

/-- A state whose port is no longer asked for a choice. -/
def State.asked (s : State) (p : Port) : State := s.setAux { s.aux with choiceDue := s.aux.choiceDue.set p false }

theorem chooseIfDue_of_due {s : State} {p : Port} (h : s.aux.choiceDue.get p = true) : s.chooseIfDue p = (s.asked p).choose p :=
  if_pos h

theorem chooseIfDue_of_not_due {s : State} {p : Port} (h : s.aux.choiceDue.get p = false) : s.chooseIfDue p = s :=
  if_neg (by simp [h])

theorem asked_kept (s : State) (p : Port) : Kept s (s.asked p) := kept_of_update rfl

/-- What a port's choice, made where it was asked for, leaves alone: it is asked for no longer. -/
theorem chooseIfDue_choiceKept (s : State) (p : Port) : ChoiceKept p (s.asked p) (s.chooseIfDue p) := by
  cases h : s.aux.choiceDue.get p with
  | true =>
    rw [chooseIfDue_of_due h]
    exact choose_choiceKept _ p
  | false =>
    have hsame : s.asked p = s := by
      show s.setAux { s.aux with choiceDue := s.aux.choiceDue.set p false } = s
      rw [← h, PerPort.set_get]
      rfl
    rw [chooseIfDue_of_not_due h, hsame]
    exact .refl s

theorem chooseIfDue_choiceDue (s : State) (p q : Port) :
    (s.chooseIfDue p).aux.choiceDue.get q = if q = p then false else s.aux.choiceDue.get q := by
  rw [(chooseIfDue_choiceKept s p).aux]
  exact PerPort.get_set ..

/-- What choices leave of the event unit's report, of the own-frame slots and of the openings taken. -/
structure ChoicesKept (s t : State) : Prop extends Kept s t where
  openedAt : t.aux.openedAt = s.aux.openedAt
  slotFreed : t.aux.slotFreed = s.aux.slotFreed
  report : t.events.report = s.events.report
  timer : t.events.timer = s.events.timer
  sink : t.events.sink = s.events.sink
  slots : t.slotsTaken = s.slotsTaken

namespace ChoicesKept

theorem refl (s : State) : ChoicesKept s s := ⟨.refl s, rfl, rfl, rfl, rfl, rfl, rfl⟩

theorem trans {s t u : State} (h : ChoicesKept s t) (k : ChoicesKept t u) : ChoicesKept s u :=
  ⟨h.toKept.trans k.toKept, k.openedAt.trans h.openedAt, k.slotFreed.trans h.slotFreed, k.report.trans h.report,
    k.timer.trans h.timer, k.sink.trans h.sink, k.slots.trans h.slots⟩

end ChoicesKept

theorem chooseIfDue_choicesKept (s : State) (p : Port) : ChoicesKept s (s.chooseIfDue p) :=
  have h := chooseIfDue_choiceKept s p
  ⟨(asked_kept s p).trans h.toKept, by rw [h.aux]; rfl, by rw [h.aux]; rfl, h.report, h.timer, h.sink, h.slots⟩

theorem chooseAll_choicesKept (ps : List Port) (s : State) : ChoicesKept s (ps.foldl State.chooseIfDue s) :=
  List.foldlRecOn (motive := ChoicesKept s) ps _ (.refl s) fun _ ht p _ => ht.trans (chooseIfDue_choicesKept _ p)

theorem makeChoices_choicesKept (s : State) : ChoicesKept s s.makeChoices := chooseAll_choicesKept _ s

/-- Ports that have made the choice asked for are asked for none; the others are as before. -/
theorem chooseAll_choiceDue (ps : List Port) (s : State) (p : Port) :
    (ps.foldl State.chooseIfDue s).aux.choiceDue.get p = if p ∈ ps then false else s.aux.choiceDue.get p := by
  induction ps generalizing s with
  | nil => rfl
  | cons q ps ih =>
    rw [List.foldl_cons, ih, chooseIfDue_choiceDue]
    by_cases hm : p ∈ ps
    · simp [hm]
    · by_cases hq : p = q <;> simp [hm, hq]

theorem makeChoices_choiceDue (s : State) (p : Port) : s.makeChoices.aux.choiceDue.get p = false := by
  rw [State.makeChoices, chooseAll_choiceDue, if_pos (Port.mem_all p)]

/-- Where no port is asked for a choice none is made. -/
theorem makeChoices_of_none_due {s : State} (h : ∀ p, s.aux.choiceDue.get p = false) : s.makeChoices = s :=
  List.foldlRecOn (motive := fun t => t = s) _ _ rfl fun t ht p _ => by
    rw [ht]
    exact chooseIfDue_of_not_due (h p)

/-- What the choices of other ports leave of a port, and of the own queue where the port is T. -/
structure Untouched (p : Port) (s t : State) : Prop where
  kept : ChoicesKept s t
  due : t.aux.choiceDue.get p = s.aux.choiceDue.get p
  port : t.ports.get p = s.ports.get p
  own : p = .t → t.own = s.own

namespace Untouched

variable {p : Port}

theorem refl (s : State) : Untouched p s s := ⟨.refl s, rfl, rfl, fun _ => rfl⟩

theorem trans {s t u : State} (h : Untouched p s t) (k : Untouched p t u) : Untouched p s u :=
  ⟨h.kept.trans k.kept, k.due.trans h.due, k.port.trans h.port, fun hp => (k.own hp).trans (h.own hp)⟩

end Untouched

theorem chooseIfDue_untouched {p q : Port} (s : State) (hq : q ≠ p) : Untouched p s (s.chooseIfDue q) :=
  have h := chooseIfDue_choiceKept s q
  ⟨chooseIfDue_choicesKept s q, by rw [chooseIfDue_choiceDue, if_neg hq.symm], h.others p hq.symm, fun hp => h.own fun ht => hq (ht.trans hp.symm)⟩

theorem chooseAll_untouched {p : Port} {ps : List Port} (h : p ∉ ps) (s : State) : Untouched p s (ps.foldl State.chooseIfDue s) :=
  List.foldlRecOn (motive := Untouched p s) ps _ (.refl s) fun _ ht _ hq =>
    ht.trans (chooseIfDue_untouched _ fun he => h (he ▸ hq))

/-- Among the choices of all ports, the one of a port comes between choices of others. -/
theorem makeChoices_at (s : State) (p : Port) : ∃ v, Untouched p s v ∧ Untouched p (v.chooseIfDue p) s.makeChoices := by
  obtain ⟨before, behind, hall⟩ := List.append_of_mem (Port.mem_all p)
  have hnodup : Port.all.Nodup := by decide
  rw [hall, List.nodup_append, List.nodup_cons] at hnodup
  obtain ⟨-, ⟨hbehind, -⟩, hdisjoint⟩ := hnodup
  have hbefore : p ∉ before := fun h => hdisjoint p h p (List.mem_cons_self ..) rfl
  refine ⟨before.foldl State.chooseIfDue s, chooseAll_untouched hbefore s, ?_⟩
  rw [State.makeChoices, hall, List.foldl_append, List.foldl_cons]
  exact chooseAll_untouched hbehind _

theorem makeChoices_untouched {s : State} {p : Port} (h : s.aux.choiceDue.get p = false) : Untouched p s s.makeChoices := by
  obtain ⟨v, hv, ht⟩ := makeChoices_at s p
  rw [chooseIfDue_of_not_due (hv.due.trans h)] at ht
  exact hv.trans ht

/-! ### Drains that complete (R126) -/

/-- A port after its completion test. -/
def PortUnit.completed (u : PortUnit) : PortUnit :=
  if u.admin = .draining ∧ u.tx.isIdle ∧ u.queuesEmpty then { u with admin := .drained, drain := none } else u

/-- Where a port is DRAINING, its drain has something left to send. -/
def PortUnit.DrainGoesOn (u : PortUnit) : Prop := u.admin = .draining → ¬(u.tx.isIdle = true ∧ u.queuesEmpty = true)

theorem completed_goesOn (u : PortUnit) : u.completed.DrainGoesOn := by
  unfold PortUnit.completed
  split
  · exact fun h => nomatch h
  · next h => exact fun ha hd => h ⟨ha, hd⟩

theorem completed_rest (u : PortUnit) : u.completed.tx = u.tx ∧ u.completed.queues = u.queues := by
  unfold PortUnit.completed
  split <;> exact ⟨rfl, rfl⟩

theorem completeDrain_ports (s : State) (p : Port) : (s.completeDrain p).ports = s.ports.set p (s.ports.get p).completed := by
  unfold State.completeDrain PortUnit.completed
  dsimp only
  split
  · rfl
  · exact (PerPort.set_get ..).symm

/-- What the completion tests leave alone. -/
structure DrainsKept (s t : State) : Prop extends ChoicesKept s t where
  choiceDue : t.aux.choiceDue = s.aux.choiceDue
  own : t.own = s.own
  tx : ∀ p, (t.ports.get p).tx = (s.ports.get p).tx
  queues : ∀ p, (t.ports.get p).queues = (s.ports.get p).queues

theorem completeDrain_drainsKept (s : State) (p : Port) : DrainsKept s (s.completeDrain p) := by
  have hports := completeDrain_ports s p
  obtain ⟨htx, hqueues⟩ := completed_rest (s.ports.get p)
  have hport (q : Port) : ((s.completeDrain p).ports.get q).tx = (s.ports.get q).tx ∧
      ((s.completeDrain p).ports.get q).queues = (s.ports.get q).queues := by
    rw [hports, PerPort.get_set]
    split
    · next hq =>
      subst hq
      exact ⟨htx, hqueues⟩
    · exact ⟨rfl, rfl⟩
  have hrest : (s.completeDrain p).aux = s.aux ∧ (s.completeDrain p).own = s.own ∧
      (s.completeDrain p).events.report = s.events.report ∧ (s.completeDrain p).events.timer = s.events.timer ∧
      (s.completeDrain p).events.sink = s.events.sink := by
    unfold State.completeDrain
    dsimp only
    split
    · obtain ⟨hsink, hreport, htimer, -⟩ := raise_rest s.events .drainDone (some p) none s.clock.number
        (drainDetail false (((s.ports.get p).drain.map (·.flushed)).getD 0))
      exact ⟨rfl, rfl, hreport, htimer, hsink⟩
    · exact ⟨rfl, rfl, rfl, rfl, rfl⟩
  obtain ⟨haux, hown, hreport, htimer, hsink⟩ := hrest
  exact ⟨⟨completeDrain_kept s p, congrArg Aux.openedAt haux, congrArg Aux.slotFreed haux, hreport, htimer, hsink,
    slotsTaken_congr hown (congrArg Transmitter.ownSlots (hport .t).1)⟩, congrArg Aux.choiceDue haux, hown, fun q => (hport q).1,
    fun q => (hport q).2⟩

theorem completeDrains_drainsKept (s : State) : DrainsKept s s.completeDrains :=
  List.foldlRecOn (motive := DrainsKept s) _ _ ⟨.refl s, rfl, rfl, fun _ => rfl, fun _ => rfl⟩ fun t ht p _ =>
    have h := completeDrain_drainsKept t p
    ⟨ht.toChoicesKept.trans h.toChoicesKept, h.choiceDue.trans ht.choiceDue, h.own.trans ht.own, fun q => (h.tx q).trans (ht.tx q),
      fun q => (h.queues q).trans (ht.queues q)⟩

/-- After the completion tests no branch is left DRAINING with nothing to send. -/
theorem completeDrains_goesOn (s : State) {p : Port} (hp : p ≠ .t) : (s.completeDrains.ports.get p).DrainGoesOn := by
  have hkeep (ps : List Port) (t : State) (h : (t.ports.get p).DrainGoesOn) : ((ps.foldl State.completeDrain t).ports.get p).DrainGoesOn :=
    List.foldlRecOn (motive := fun t : State => (t.ports.get p).DrainGoesOn) ps _ h fun t ht q _ => by
      rw [completeDrain_ports, PerPort.get_set]
      split
      · exact completed_goesOn _
      · exact ht
  have hmem : p ∈ Port.branches := by cases p <;> simp_all [Port.branches]
  obtain ⟨before, behind, hall⟩ := List.append_of_mem hmem
  rw [State.completeDrains, hall, List.foldl_append, List.foldl_cons]
  refine hkeep behind _ ?_
  rw [completeDrain_ports, PerPort.get_set, if_pos rfl]
  exact completed_goesOn _

/-! ### The event unit's work (R153, R155, R156) -/

/-- What an append to the own queue leaves of the model's own fields: T is asked for a choice where the queue was empty. -/
theorem appendOwn_aux (s : State) (f : OwnFrame) : (s.appendOwn f).aux =
    if s.own = [] then { s.aux with choiceDue := s.aux.choiceDue.set .t true } else s.aux := by
  unfold State.appendOwn
  cases s.own <;> rfl

/-- Own frames that the event unit appends: T is asked for a choice where the queue was empty, and then a report is outstanding. -/
structure Appended (s t : State) : Prop extends Kept s t where
  ports : t.ports = s.ports
  openedAt : t.aux.openedAt = s.aux.openedAt
  freed : s.aux.slotFreed = false → t.aux.slotFreed = false
  branches : ∀ p, p ≠ .t → t.aux.choiceDue.get p = s.aux.choiceDue.get p
  own : t.aux.choiceDue.get .t = s.aux.choiceDue.get .t ∧ (∃ l, t.own = s.own ++ l ∧ (s.own = [] → l = [])) ∨
    t.aux.choiceDue.get .t = true ∧ t.events.report ≠ none
  report : s.events.report ≠ none → t.events.report ≠ none

namespace Appended

theorem of_same {s t : State} (hk : Kept s t) (hp : t.ports = s.ports) (hc : t.aux.choiceDue = s.aux.choiceDue)
    (ha : t.aux.openedAt = s.aux.openedAt) (hf : s.aux.slotFreed = false → t.aux.slotFreed = false) (ho : t.own = s.own)
    (hr : t.events.report = s.events.report) : Appended s t :=
  ⟨hk, hp, ha, hf, fun _ _ => by rw [hc], .inl ⟨by rw [hc], [], by rw [ho, List.append_nil], fun _ => rfl⟩, by rw [hr]; exact id⟩

theorem trans {s t u : State} (h : Appended s t) (k : Appended t u) : Appended s u := by
  refine ⟨h.toKept.trans k.toKept, k.ports.trans h.ports, k.openedAt.trans h.openedAt, fun hf => k.freed (h.freed hf),
    fun p hp => (k.branches p hp).trans (h.branches p hp), ?_, fun hr => k.report (h.report hr)⟩
  rcases k.own with ⟨hdue, l, ho, hl⟩ | hk
  · rcases h.own with ⟨hdue', l', ho', hl'⟩ | ⟨hdue', hr⟩
    · refine .inl ⟨hdue.trans hdue', l' ++ l, by rw [ho, ho', List.append_assoc], fun hs => ?_⟩
      have hl' := hl' hs
      rw [hl', hl (by rw [ho', hs, hl']; rfl)]
      rfl
    · exact .inr ⟨hdue.trans hdue', k.report hr⟩
  · exact .inr hk

/-- A report frame joins the own queue. -/
theorem append {s : State} (e : EventUnit) (f : OwnFrame) (he : e.report ≠ none) : Appended s ((s.setEvents e).appendOwn f) := by
  obtain ⟨hown, hports, -, hevents, -⟩ := appendOwn_rest (s.setEvents e) f
  have haux : ((s.setEvents e).appendOwn f).aux =
      if s.own = [] then { s.aux with choiceDue := s.aux.choiceDue.set .t true } else s.aux := appendOwn_aux (s.setEvents e) f
  have hreport : ((s.setEvents e).appendOwn f).events.report ≠ none := by
    rw [hevents]
    exact he
  refine ⟨(setEvents_kept s e).trans (appendOwn_kept ..), hports, ?_, fun hf => ?_, fun p hp => ?_, ?_, fun _ => hreport⟩
  · rw [haux]
    split <;> rfl
  · rw [haux]
    split <;> exact hf
  · rw [haux]
    split
    · exact (PerPort.get_set ..).trans (if_neg hp)
    · rfl
  · by_cases ho : s.own = []
    · refine .inr ⟨?_, hreport⟩
      rw [haux, if_pos ho]
      show (s.aux.choiceDue.set .t true).get .t = true
      rw [PerPort.get_set, if_pos rfl]
    · refine .inl ⟨?_, [f], hown, fun h => absurd h ho⟩
      rw [haux, if_neg ho]

end Appended

theorem retransmit_appended (s : State) : Appended s s.retransmit := by
  unfold State.retransmit
  split
  · split
    · exact .append _ _ (by simp)
    · exact .of_same (.refl s) rfl rfl rfl id rfl rfl
  · exact .of_same (.refl s) rfl rfl rfl id rfl rfl

theorem buildReport_appended (s : State) : Appended s s.buildReport := by
  unfold State.buildReport
  split
  · exact .of_same (.refl s) rfl rfl rfl id rfl rfl
  · split
    · exact .append _ _ (by simp)
    · exact .of_same (.refl s) rfl rfl rfl id rfl rfl

/-- What queueing the OVERFLOW notice leaves of the event unit. -/
theorem queueOverflow_rest (e : EventUnit) (n : Word) : (e.queueOverflow n).report = e.report ∧ (e.queueOverflow n).timer = e.timer ∧
    (e.queueOverflow n).sink = e.sink := by
  unfold EventUnit.queueOverflow
  split <;> exact ⟨rfl, rfl, rfl⟩

theorem queueOverflow_appended (s : State) : Appended s s.queueOverflow :=
  .of_same (queueOverflow_kept s) rfl rfl rfl id rfl (queueOverflow_rest ..).1

theorem eventWork_appended (s : State) : Appended s s.eventWork := by
  have h := queueOverflow_appended s
  unfold State.eventWork
  split
  · exact h.trans (.of_same (setAux_kept ..) rfl rfl rfl (fun _ => rfl) rfl rfl)
  · exact (h.trans (retransmit_appended _)).trans (buildReport_appended _)

/-! ### The branches after settling -/

/-- Settling leaves a branch as its first choices and the completion tests left it. -/
theorem settle_branch (s : State) {p : Port} (hp : p ≠ .t) : (settle s).ports.get p = s.makeChoices.completeDrains.ports.get p := by
  have hwork := eventWork_appended s.makeChoices.completeDrains
  have hdue : s.makeChoices.completeDrains.eventWork.aux.choiceDue.get p = false := by
    rw [hwork.branches p hp, (completeDrains_drainsKept _).choiceDue]
    exact makeChoices_choiceDue s p
  rw [settle, (makeChoices_untouched hdue).port, hwork.ports]

theorem settle_goesOn (s : State) {p : Port} (hp : p ≠ .t) : ((settle s).ports.get p).DrainGoesOn := by
  rw [settle_branch s hp]
  exact completeDrains_goesOn _ hp

/-- Every command that the running gate takes ends with the steps that follow. -/
theorem exec_taken (c : Instr) (s : State) (ha : c ≠ .resetAssert) (hr : ∀ a b l, c ≠ .resetRelease a b l) :
    ∃ f, exec c s = taken s f := by
  cases c
  case resetAssert => exact absurd rfl ha
  case resetRelease => exact absurd rfl (hr _ _ _)
  all_goals dsimp only [Machine.exec]
  all_goals exact ⟨_, rfl⟩

/-! ### Drains (R121, R126) -/

theorem drainInv_iff {s : State} : s.DrainInv ↔ s.PortsMeet (fun p u => u.DrainOk p) ∧
    (s.resetHeld = false → ∀ p, p ≠ .t → (s.ports.get p).DrainGoesOn) := by
  constructor
  · rintro ⟨ht, h⟩
    exact ⟨fun p => ⟨fun hp => hp ▸ ht, (h p).1⟩, fun hr p _ => (h p).2 hr⟩
  · rintro ⟨hok, hgo⟩
    have ht : s.ports.t.admin = .opened := (hok .t).1 rfl
    refine ⟨ht, fun p => ⟨(hok p).2, fun hr hd => ?_⟩⟩
    by_cases hp : p = .t
    · subst hp
      exact absurd (ht.symm.trans hd) (by decide)
    · exact hgo hr p hp hd

/-- Byte times that go by leave a drain with something left to send. -/
theorem goesOn_elapse {u : PortUnit} (n : Nat) (h : u.DrainGoesOn) : (u.elapse n).DrainGoesOn := by
  intro ha hd
  refine h ha ⟨?_, hd.2⟩
  have := hd.1
  unfold PortUnit.elapse at this
  cases htx : u.tx <;> simp_all [Transmitter.elapse, Transmitter.isIdle]

theorem goesOn_step {s t : State} (hs : s.resetHeld = false → ∀ p, p ≠ .t → (s.ports.get p).DrainGoesOn) (he : step s = .next t) :
    t.resetHeld = false → ∀ p, p ≠ .t → (t.ports.get p).DrainGoesOn := by
  unfold step at he
  split at he
  · cases he
    intro hr p hp
    unfold idleStep at hr ⊢
    split at hr
    · next hheld => exact absurd (hheld.symm.trans hr) (by decide)
    · next hheld =>
      rw [if_neg hheld]
      have hs := hs (by simpa using hheld) p hp
      split
      · show ((s.advance 1).ports.get p).DrainGoesOn
        rw [advance_port]
        exact goesOn_elapse 1 hs
      · exact hs
  · next c cs hq =>
    intro hr p hp
    by_cases ha : c = .resetAssert
    · subst ha
      simp only [Machine.exec, execResetAssert, Host.Outcome.next.injEq] at he
      subst he
      cases hr
    · by_cases hl : ∀ a b l, c ≠ .resetRelease a b l
      · obtain ⟨f, hf⟩ := exec_taken c { s with pending := cs } ha hl
        rcases taken_next (hf.symm.trans he) with ⟨hheld, rfl⟩ | ⟨-, rfl⟩
        · exact absurd (hheld.symm.trans hr) (by decide)
        · exact settle_goesOn _ hp
      · simp only [not_forall, not_not] at hl
        obtain ⟨a, b, l, rfl⟩ := hl
        simp only [Machine.exec, execResetRelease, Host.Outcome.next.injEq] at he
        subst he
        intro had
        have hport : (State.powerOn a b l cs).ports.get p = .powerOn (l.get p) := PerPort.get_map ..
        rw [hport] at had
        cases had

/-- Settles O59: the conditions that read one port at a time are kept by every operation (`drainOk_closed`, `linkOk_closed`), and after every command the
completion tests leave no branch DRAINING with nothing to send (`settle_goesOn`). -/
theorem everyStepKeepsDrainsAndDownPorts : Obligations.EveryStepKeepsDrainsAndDownPorts := by
  refine ⟨fun s t hs he => ?_, fun s t hs he => ?_⟩
  · obtain ⟨hok, hgo⟩ := drainInv_iff.1 hs
    exact drainInv_iff.2 ⟨drainOk_closed.step s t hok he, goesOn_step hgo he⟩
  · exact linkInv_iff.2 (linkOk_closed.step s t (linkInv_iff.1 hs) he)

end Sys2Proof.Machine
end

section
/-! What settling does and leaves alone (log entries 2 and 27): no candidate is left to a port that was asked, and no notice, report or retransmission whose
conditions hold. -/

namespace Sys2Proof.Machine

open Sys2Proof

/-! ### A choice leaves no candidate (R11, R12, R17, R18) -/

/-- On the terms that a state gives a port, another state has no candidate left for it: in each class admitted an empty queue or a live head that does not fit, and
on T no own head that is admitted and fits. -/
def State.LeavesNone (s : State) (p : Port) (t : State) : Prop :=
  (∀ c d behind, s.admitsClass p c → (t.ports.get p).queues.get c = d :: behind →
    d.live s.clock.number = true ∧ ¬s.holds p d.length) ∧
  (p = .t → ∀ o rest, t.own = o :: rest → s.admitsOwn p → ¬s.holds p o.payload.length)

section
variable {s t u : State} {p : Port}

theorem leavesNone_iff (hk : Kept s t) (ho : t.aux.openedAt = s.aux.openedAt) : t.LeavesNone p u ↔ s.LeavesNone p u := by
  simp only [State.LeavesNone, State.admitsClass, State.admitsOwn, State.holds, hk.mode, hk.openWindow ho, hk.clock]

theorem State.LeavesNone.congr (h : s.LeavesNone p t) (hq : (u.ports.get p).queues = (t.ports.get p).queues)
    (ho : p = .t → ∀ o rest, u.own = o :: rest → ∃ l, t.own = o :: l) : s.LeavesNone p u := by
  obtain ⟨hclasses, hown⟩ := h
  refine ⟨fun c d behind ha he => hclasses c d behind ha (hq ▸ he), fun hp o rest he => ?_⟩
  obtain ⟨l, hl⟩ := ho hp o rest he
  exact hown hp o l hl

theorem State.LeavesNone.untouched (h : s.LeavesNone p t) (hu : Untouched p t u) : s.LeavesNone p u :=
  h.congr (by rw [hu.port]) fun hp _ rest ho => ⟨rest, hu.own hp ▸ ho⟩

/-- A choice that leaves the transmitter of a port that is UP idle has no candidate left. -/
theorem choose_leavesNone (hl : (s.ports.get p).link = true) (hidle : ((s.choose p).ports.get p).tx = .idle) : s.LeavesNone p (s.choose p) := by
  by_cases ht : (s.ports.get p).tx = .idle
  case neg =>
    rw [choose_of_busy fun h => ht h.1] at hidle
    exact absurd hidle ht
  rcases choose_cases ht hl with ⟨hm, hw, he⟩ | ⟨fits, own, cs, hterms, he⟩
  · refine ⟨fun c d behind ha => ?_, fun _ o rest _ ha => ?_⟩
    · rcases ha with h | ⟨-, w, h, -⟩
      · exact absurd (hm.symm.trans h) (by decide)
      · exact absurd (hw.symm.trans h) (by simp)
    · rcases ha with h | ⟨w, h, -⟩
      · exact absurd hm h
      · exact absurd (hw.symm.trans h) (by simp)
  · have hpassed : p = .t → ∀ o rest, s.own = o :: rest → own = true → fits (occupancy o.payload.length) = false := by
      rintro rfl o rest ho hown
      by_contra hfits
      rw [he, serve_own ho hown (by simpa using hfits)] at hidle
      cases hidle
    have hserve := he.trans (serve_classes (cs := cs) hpassed)
    rw [hserve] at hidle ⊢
    have hspent := tryClasses_spent fits p cs s hidle
    have hkept := tryClasses_kept fits p cs s
    refine ⟨fun c d behind ha hq => ?_, fun hp o rest ho ha hh => ?_⟩
    · obtain ⟨hlive, hfits⟩ := hspent c (.inl ((hterms.classes c).2 ha)) d behind hq
      rw [hkept.clock] at hlive
      refine ⟨hlive, fun hh => ?_⟩
      rw [(hterms.fits d.length).2 hh] at hfits
      cases hfits
    · rw [tryClasses_own] at ho
      have hfits := hpassed hp o rest ho (hterms.own.2 ha)
      rw [(hterms.fits o.payload.length).2 hh] at hfits
      cases hfits

/-- A transmitter idle after follow-on steps was idle before them. -/
theorem PortFollows.idle {u v : PortUnit} (h : PortFollows u v) (hidle : v.tx = .idle) : u.tx = .idle := by
  rcases h.tx with he | ⟨he, -⟩
  · exact he ▸ hidle
  · exact he

theorem makeChoices_follows (s : State) : Follows s s.makeChoices := Follows.foldl chooseIfDue_follows _ _

theorem completeDrains_follows (s : State) : Follows s s.completeDrains := Follows.foldl completeDrain_follows _ _

/-- A port that is UP, was asked for a choice and is still idle has no candidate left. -/
theorem makeChoices_leavesNone (hdue : s.aux.choiceDue.get p = true) (hl : (s.ports.get p).link = true)
    (hidle : (s.makeChoices.ports.get p).tx = .idle) : s.LeavesNone p s.makeChoices := by
  obtain ⟨v, hv, ht⟩ := makeChoices_at s p
  rw [chooseIfDue_of_due (hv.due.trans hdue)] at ht
  have hlink : ((v.asked p).ports.get p).link = true := by
    show (v.ports.get p).link = true
    rw [hv.port]
    exact hl
  rw [ht.port] at hidle
  have hterms : (v.asked p).LeavesNone p s.makeChoices := (choose_leavesNone hlink hidle).untouched ht
  have hkept : ChoicesKept s (v.asked p) := hv.kept.trans ⟨asked_kept v p, rfl, rfl, rfl, rfl, rfl, rfl⟩
  exact (leavesNone_iff hkept.toKept hkept.openedAt).1 hterms

/-- A port that is UP, was asked for a choice and is idle after all follow-on steps has no candidate left: a branch's first choice found none, and T is asked
again where a report joins the empty own queue. -/
theorem settle_leavesNone (hdue : s.aux.choiceDue.get p = true) (hl : (s.ports.get p).link = true)
    (hidle : ((settle s).ports.get p).tx = .idle) : s.LeavesNone p (settle s) := by
  have hchoices := makeChoices_choicesKept s
  have hdrains := completeDrains_drainsKept s.makeChoices
  have hwork := eventWork_appended s.makeChoices.completeDrains
  have hlast := (makeChoices_follows s.makeChoices.completeDrains.eventWork).ports p
  have hidleWork := hlast.idle hidle
  have hidleFirst : (s.makeChoices.ports.get p).tx = .idle := by
    rw [← hdrains.tx p, ← hwork.ports]
    exact hidleWork
  have hfirst : s.LeavesNone p s.makeChoices.completeDrains :=
    (makeChoices_leavesNone hdue hl hidleFirst).congr (hdrains.queues p) fun _ o rest ho => ⟨rest, hdrains.own ▸ ho⟩
  have hkept : Kept s s.makeChoices.completeDrains.eventWork := (hchoices.toKept.trans hdrains.toKept).trans hwork.toKept
  have hopened : s.makeChoices.completeDrains.eventWork.aux.openedAt = s.aux.openedAt :=
    hwork.openedAt.trans (hdrains.openedAt.trans hchoices.openedAt)
  by_cases hagain : s.makeChoices.completeDrains.eventWork.aux.choiceDue.get p = true
  · have hlink : (s.makeChoices.completeDrains.eventWork.ports.get p).link = true := by
      rw [hwork.ports, ((completeDrains_follows _).ports p).link, ((makeChoices_follows s).ports p).link]
      exact hl
    exact (leavesNone_iff hkept hopened).1 (makeChoices_leavesNone hagain hlink hidle)
  · have hnot : s.makeChoices.completeDrains.eventWork.aux.choiceDue.get p = false := by simpa using hagain
    refine (hfirst.congr (u := s.makeChoices.completeDrains.eventWork) (by rw [hwork.ports]) ?_).untouched (makeChoices_untouched hnot)
    rintro rfl o rest ho
    rcases hwork.own with ⟨-, l, hl, hempty⟩ | ⟨h, -⟩
    · cases hown : s.makeChoices.completeDrains.own with
      | nil =>
        rw [hl, hown, hempty hown] at ho
        cases ho
      | cons x xs =>
        rw [hl, hown] at ho
        cases ho
        exact ⟨xs, rfl⟩
    · exact absurd h hagain

end

/-! ### No OVERFLOW notice is left (R153) -/

/-- The OVERFLOW notice is queued, or one of its conditions fails. -/
def EventUnit.OverflowSettled (e : EventUnit) : Prop :=
  e.overflowSet = [] ∨ Config.ordinaryNotices ≤ ordinaryCount e.queue ∨ overflowInQueue e.queue = true

theorem queueOverflow_settled (e : EventUnit) (n : Word) : (e.queueOverflow n).OverflowSettled := by
  unfold EventUnit.queueOverflow
  split
  · exact .inl rfl
  · next h =>
    by_cases hs : e.overflowSet = []
    · exact .inl hs
    by_cases hc : ordinaryCount e.queue < Config.ordinaryNotices
    · exact .inr (.inr (by simpa [hs, hc] using h))
    · exact .inr (.inl (Nat.le_of_not_lt hc))

theorem EventUnit.OverflowSettled.of_notices {e e' : EventUnit} (h : e.OverflowSettled) (hs : e'.overflowSet = e.overflowSet)
    (hn : e'.queue.map (·.notice) = e.queue.map (·.notice)) : e'.OverflowSettled := by
  have hcount : ordinaryCount e'.queue = ordinaryCount e.queue := by
    have := congrArg (fun l : List Notice => (l.filter fun x => x.kind ≠ .overflow).length) hn
    simpa [ordinaryCount, List.filter_map, Function.comp_def] using this
  have hin : overflowInQueue e'.queue = overflowInQueue e.queue := by
    have := congrArg (fun l : List Notice => l.any fun x => x.kind = .overflow) hn
    simpa [overflowInQueue, List.any_map, Function.comp_def] using this
  unfold EventUnit.OverflowSettled
  rwa [hs, hcount, hin]

/-- A further notice is queued, or is lost where the OVERFLOW notice could not be queued before it either. -/
theorem EventUnit.OverflowSettled.raise {e : EventUnit} (h : e.OverflowSettled) (k : NoticeKind) (p : Option Port) (n : Option StreamNo)
    (c d : Word) : (e.raise k p n c d).OverflowSettled := by
  unfold EventUnit.raise
  split
  · next hc => exact .inl hc.1
  · next hc =>
    rcases h with h | h
    · exact .inr (.inl (Nat.le_of_not_lt fun hlt => hc ⟨h, hlt⟩))
    · exact .inr h

/-- What choices do to records, marks and notices is the accounting of stale heads: a condition that it keeps is kept by a choice. -/
theorem choose_accounting {E : Classifier → EventUnit → Prop} {k : Word}
    (hE : ∀ (t : State) c p d, E t.classifier t.events → E (t.accountStale c k p d).classifier (t.accountStale c k p d).events)
    {s : State} (p : Port) (hk : s.clock.number = k) (h : E s.classifier s.events) : E (s.choose p).classifier (s.choose p).events := by
  have hdrop (s : State) (c : Fin 4) (hk : s.clock.number = k) (h : E s.classifier s.events) :
      E (s.dropStale p c).classifier (s.dropStale p c).events := by
    rw [dropStale_eq, hk]
    exact foldl_kept (P := fun t => E t.classifier t.events) (fun d ht => hE _ _ _ d ht) _ h
  have htry (fits : Nat → Bool) (cs : List (Fin 4)) (s : State) (hk : s.clock.number = k) (h : E s.classifier s.events) :
      E (s.tryClasses fits p cs).classifier (s.tryClasses fits p cs).events := by
    induction cs generalizing s with
    | nil => exact h
    | cons c cs ih =>
      have hd := hdrop s c hk h
      have hkd : (s.dropStale p c).clock.number = k := by rw [(dropStale_kept ..).clock, hk]
      rw [State.tryClasses]
      split
      · exact ih _ hkd hd
      · split
        · exact hd
        · exact ih _ hkd hd
  have hserve (fits : Nat → Bool) (own : Bool) (cs : List (Fin 4)) : E (s.serve fits own cs p).classifier (s.serve fits own cs p).events := by
    unfold State.serve
    split
    · exact htry fits cs s hk h
    · split
      · exact h
      · exact htry fits cs s hk h
  by_cases hc : (s.ports.get p).tx = .idle ∧ (s.ports.get p).link = true
  · rcases choose_cases hc.1 hc.2 with ⟨-, -, he⟩ | ⟨fits, own, cs, -, he⟩
    · rwa [he]
    · rw [he]
      exact hserve fits own cs
  · rwa [choose_of_busy hc]

theorem makeChoices_accounting {E : Classifier → EventUnit → Prop} {s : State}
    (hE : ∀ (t : State) c p d, E t.classifier t.events →
      E (t.accountStale c s.clock.number p d).classifier (t.accountStale c s.clock.number p d).events)
    (h : E s.classifier s.events) : E s.makeChoices.classifier s.makeChoices.events := by
  have hfold := foldl_kept (P := fun t => t.clock.number = s.clock.number ∧ E t.classifier t.events) (f := State.chooseIfDue)
    (fun {t} p ht => ?_) Port.all ⟨rfl, h⟩
  · exact hfold.2
  · refine ⟨by rw [(chooseIfDue_kept t p).clock, ht.1], ?_⟩
    cases hdue : t.aux.choiceDue.get p with
    | true =>
      rw [chooseIfDue_of_due hdue]
      exact choose_accounting hE (s := t.asked p) p ht.1 ht.2
    | false =>
      rw [chooseIfDue_of_not_due hdue]
      exact ht.2

/-- The notices of choices are STREAM_LATE ones: a condition on the event unit that a raised notice keeps is kept by them. -/
theorem makeChoices_events {E : EventUnit → Prop} (hE : ∀ e k p n c d, E e → E (EventUnit.raise e k p n c d)) {s : State}
    (h : E s.events) : E s.makeChoices.events := by
  refine makeChoices_accounting (E := fun _ e => E e) (fun t c p d ht => ?_) h
  by_cases hn : streamEntry c d.stream = none
  · rwa [(accountStale_noEntry hn).2]
  · by_cases hrep : t.reportsLate c s.clock.number d
    · rw [((accountStale_entry hn).1 hrep).2]
      exact hE _ _ _ _ _ _ ht
    · rwa [((accountStale_entry hn).2 hrep).2]

/-! ### No report and no retransmission is left (R155, R156) -/

/-- No report could be built. -/
def State.ReportSettled (s : State) : Prop :=
  s.events.sink = none ∨ s.events.report ≠ none ∨ (∀ x ∈ s.events.queue, x.sent = true) ∨ Config.ownSlots ≤ s.slotsTaken

/-- No retransmission that is due could be made. -/
def State.RetransmissionSettled (s : State) : Prop :=
  ∀ r, s.events.report = some r → r.due = true → s.events.sink = none ∨ Config.ownSlots ≤ s.slotsTaken

theorem slotsTaken_of_not_free {s : State} (h : ¬s.slotFree = true) : Config.ownSlots ≤ s.slotsTaken :=
  Nat.le_of_not_lt fun hlt => h (slotFree_iff.2 hlt)

theorem unsentNotices_eq_nil {q : List QueuedNotice} : unsentNotices q = [] ↔ ∀ x ∈ q, x.sent = true := by
  simp [unsentNotices]

/-- What the append of a report frame leaves of the event unit set before it. -/
theorem setEvents_appendOwn_events (s : State) (e : EventUnit) (f : OwnFrame) : ((s.setEvents e).appendOwn f).events = e :=
  (appendOwn_rest (s.setEvents e) f).2.2.2.1

theorem retransmit_settled (s : State) : s.retransmit.RetransmissionSettled := by
  unfold State.retransmit
  split
  · next sink r hs hr =>
    split
    · intro x hx hd
      rw [setEvents_appendOwn_events] at hx
      cases hx
      cases hd
    · next hc =>
      intro x hx hd
      rw [hr] at hx
      cases hx
      exact .inr (slotsTaken_of_not_free fun hf => hc ⟨hd, hf⟩)
  · next hnone =>
    intro x hx _
    cases hs : s.events.sink with
    | none => exact .inl rfl
    | some sink => exact absurd hx (hnone sink x hs)

theorem buildReport_settled {s : State} (h : s.RetransmissionSettled) : s.buildReport.ReportSettled ∧ s.buildReport.RetransmissionSettled := by
  unfold State.buildReport
  split
  · next hs => exact ⟨.inl hs, h⟩
  · next sink hs =>
    split
    · refine ⟨.inr (.inl (by rw [setEvents_appendOwn_events]; simp)), fun r hr hd => ?_⟩
      rw [setEvents_appendOwn_events] at hr
      cases hr
      cases hd
    · next hc =>
      refine ⟨?_, h⟩
      by_cases hr : s.events.report = none
      · by_cases hu : unsentNotices s.events.queue = []
        · exact .inr (.inr (.inl (unsentNotices_eq_nil.1 hu)))
        · exact .inr (.inr (.inr (slotsTaken_of_not_free fun hf => hc ⟨hr, hu, hf⟩)))
      · exact .inr (.inl hr)

theorem retransmit_notices (s : State) : s.retransmit.events.overflowSet = s.events.overflowSet ∧
    s.retransmit.events.queue.map (·.notice) = s.events.queue.map (·.notice) := by
  unfold State.retransmit
  split
  · split
    · rw [setEvents_appendOwn_events]
      exact ⟨rfl, rfl⟩
    · exact ⟨rfl, rfl⟩
  · exact ⟨rfl, rfl⟩

theorem buildReport_notices (s : State) : s.buildReport.events.overflowSet = s.events.overflowSet ∧
    s.buildReport.events.queue.map (·.notice) = s.events.queue.map (·.notice) := by
  unfold State.buildReport
  split
  · exact ⟨rfl, rfl⟩
  · split
    · rw [setEvents_appendOwn_events]
      exact ⟨rfl, markSent_notices ..⟩
    · exact ⟨rfl, rfl⟩

theorem eventWork_overflow (s : State) : s.eventWork.events.OverflowSettled := by
  have h : s.queueOverflow.events.OverflowSettled := queueOverflow_settled ..
  unfold State.eventWork
  split
  · exact h
  · obtain ⟨hset, hqueue⟩ := retransmit_notices s.queueOverflow
    obtain ⟨hset', hqueue'⟩ := buildReport_notices s.queueOverflow.retransmit
    exact h.of_notices (hset'.trans hset) (hqueue'.trans hqueue)

theorem eventWork_slotFreed (s : State) : s.eventWork.aux.slotFreed = false := by
  cases h : s.aux.slotFreed with
  | true =>
    unfold State.eventWork
    rw [if_pos h]
    rfl
  | false => exact (eventWork_appended s).freed h

/-- Without a slot on offer the event unit leaves nothing to build or to make. -/
theorem eventWork_settled {s : State} (h : s.aux.slotFreed = false) : s.eventWork.ReportSettled ∧ s.eventWork.RetransmissionSettled := by
  unfold State.eventWork
  rw [if_neg (by simp [h])]
  exact buildReport_settled (retransmit_settled _)

/-- The second choices leave it so: where there is one to make a report is outstanding. -/
theorem settled_makeChoices {s : State} (hdue : (∀ p, s.aux.choiceDue.get p = false) ∨ s.events.report ≠ none)
    (h : s.ReportSettled ∧ s.RetransmissionSettled) : s.makeChoices.ReportSettled ∧ s.makeChoices.RetransmissionSettled := by
  rcases hdue with hdue | hreport
  · rw [makeChoices_of_none_due hdue]
    exact h
  · have hk := makeChoices_choicesKept s
    refine ⟨.inr (.inl (by rwa [hk.report])), fun r hr hd => ?_⟩
    rw [hk.sink, hk.slots]
    exact h.2 r (hk.report ▸ hr) hd

/-! ### Settling -/

/-- The choices left after the event unit's work: none, or T's for a report. -/
theorem eventWork_due (s : State) : (∀ p, s.makeChoices.completeDrains.eventWork.aux.choiceDue.get p = false) ∨
    s.makeChoices.completeDrains.eventWork.events.report ≠ none := by
  have hdue (p : Port) : s.makeChoices.completeDrains.aux.choiceDue.get p = false := by
    rw [(completeDrains_drainsKept _).choiceDue]
    exact makeChoices_choiceDue s p
  have hwork := eventWork_appended s.makeChoices.completeDrains
  rcases hwork.own with ⟨ht, -⟩ | ⟨-, hr⟩
  · refine .inl fun p => ?_
    by_cases hp : p = .t
    · exact hp ▸ ht.trans (hdue .t)
    · exact (hwork.branches p hp).trans (hdue p)
  · exact .inr hr

theorem queueOverflow_slotsTaken (s : State) (a : Aux) : (s.queueOverflow.setAux a).slotsTaken = s.slotsTaken := rfl

/-- With a slot on offer the report, its timer and the slots taken stay (log entry 27). -/
theorem settle_of_freed {s : State} (h : s.aux.slotFreed = true) : (settle s).events.report = s.events.report ∧
    (settle s).events.timer = s.events.timer ∧ (settle s).slotsTaken = s.slotsTaken := by
  have hfirst := (makeChoices_choicesKept s).trans (completeDrains_drainsKept s.makeChoices).toChoicesKept
  have hwork : s.makeChoices.completeDrains.eventWork = s.makeChoices.completeDrains.queueOverflow.setAux
      { s.makeChoices.completeDrains.aux with slotFreed := false } := if_pos (hfirst.slotFreed.trans h)
  have hlast := makeChoices_choicesKept s.makeChoices.completeDrains.eventWork
  obtain ⟨hreport, htimer, -⟩ := queueOverflow_rest s.makeChoices.completeDrains.events s.makeChoices.completeDrains.clock.number
  refine ⟨hlast.report.trans ?_, hlast.timer.trans ?_, hlast.slots.trans ?_⟩
  · rw [hwork]
    exact hreport.trans hfirst.report
  · rw [hwork]
    exact htimer.trans hfirst.timer
  · rw [hwork]
    exact (queueOverflow_slotsTaken ..).trans hfirst.slots

theorem settle_follows (s : State) : Follows s (settle s) :=
  (((makeChoices_follows s).trans (completeDrains_follows _)).trans (eventWork_follows _)).trans (makeChoices_follows _)

/-- Settles O3: a port asked for a choice has no candidate left (`settle_leavesNone`), the event unit has nothing left to do (`eventWork_overflow`,
`eventWork_settled`), and the steps keep the rest (`settle_kept`, `settle_follows`). -/
theorem settlingKeeps : Obligations.SettlingKeeps := by
  refine ⟨fun s => ⟨fun p => makeChoices_choiceDue _ p, fun p => ⟨fun hdue hl hidle => ?_, fun hdue hp => ?_⟩, ?overflow, fun hf => ?_,
    settle_of_freed, ?_⟩, fun s => ?_⟩
  · obtain ⟨hclasses, hown⟩ := settle_leavesNone hdue hl hidle
    exact ⟨hclasses, hown⟩
  · have hdrains := completeDrains_drainsKept s.makeChoices
    rw [settle_branch s hp, hdrains.tx p, hdrains.queues p, (makeChoices_untouched hdue).port]
    exact ⟨rfl, rfl⟩
  case overflow =>
    have h : (settle s).events.OverflowSettled :=
      makeChoices_events (E := EventUnit.OverflowSettled) (fun _ k p n c d he => he.raise k p n c d) (eventWork_overflow _)
    simpa [EventUnit.OverflowSettled, ordinaryCount, overflowInQueue, Config.ordinaryNotices] using h
  · have hfirst := (makeChoices_choicesKept s).trans (completeDrains_drainsKept s.makeChoices).toChoicesKept
    have h : (settle s).ReportSettled ∧ (settle s).RetransmissionSettled :=
      settled_makeChoices (eventWork_due s) (eventWork_settled (hfirst.slotFreed.trans hf))
    exact h
  · exact (makeChoices_choicesKept s.makeChoices.completeDrains.eventWork).slotFreed.trans (eventWork_slotFreed _)
  · have hk := settle_kept s
    have hf := settle_follows s
    refine ⟨hk.resetHeld, hk.lock, hk.clock, hk.sync, hk.trunkCount, hk.cfg, hk.straps, hk.mgmt, hf.control, hf.sink, hk.pending, fun p => ?_⟩
    have h := hf.ports p
    refine ⟨h.link, h.rx, h.count, h.admin, fun hb => ?_, h.queues⟩
    rcases h.tx with he | ⟨he, -⟩
    · exact he
    · rw [he] at hb
      cases hb

end Sys2Proof.Machine
end

section
/-! The cycle timer unit, command by command: the missed-sync evaluation, and a trunk SYNC frame judged and accepted (R87 to R96). -/

namespace Sys2Proof.Machine

open Sys2Proof

/-! ### The missed-sync evaluation (R92 to R95) -/

theorem missCycle_unsynced {s : State} (h : s.sync.state = .unsynced) : s.missCycle = s := by
  unfold State.missCycle
  rw [h]

/-- Out of UNSYNCED a missed cycle is counted. -/
theorem missCycle_trunkCount {s : State} (h : s.sync.state ≠ .unsynced) :
    s.missCycle.trunkCount = { s.trunkCount with missed := s.trunkCount.missed + 1 } := by
  unfold State.missCycle
  dsimp only
  split
  · next hu => exact absurd hu h
  · exact (loseSync_timing _).2.2.2
  · split
    · exact (loseSync_timing _).2.2.2
    · exact (setSyncState_timing _ _).2.2.2.2
  · split
    · exact (loseSync_timing _).2.2.2
    · rfl

/-- The state in which the evaluation of a cycle is made: the timer has run to its value. -/
def State.atEvaluation (s : State) : State :=
  let t := s.runTo (evaluationTime s.cfg.active.params)
  t.setAux { t.aux with evaluated := true }

theorem exec_missedSyncEvaluation {s : State} (hr : s.resetHeld = false) (he : s.aux.evaluated = false)
    (htimer : s.clock.timer ≤ evaluationTime s.cfg.active.params) (hend : evaluationTime s.cfg.active.params < s.clock.cycleEnd) :
    exec .missedSyncEvaluation s =
      .next (settle (if s.sync.accepted then s.atEvaluation else s.atEvaluation.missCycle)) := by
  refine (taken_running hr _).trans ?_
  dsimp only
  rw [if_pos ⟨htimer, hend, he⟩]
  rfl

/-- Settles O12: what `missCycle` does by sync state (`missCycle_sync`, `missCycle_events`), in the state that the timer's run to the evaluation leaves. -/
theorem missedSyncEvaluationActsByState : Obligations.MissedSyncEvaluationActsByState := by
  rintro s c hr rfl he htimer hend
  have hclock : s.atEvaluation.clock.timer = s.cfg.active.params.syncOffset + s.cfg.active.params.halfWidth + 32 :=
    Nat.add_sub_cancel' htimer
  refine ⟨_, _, exec_missedSyncEvaluation hr he htimer hend, rfl, ?_⟩
  by_cases hacted : s.sync.accepted = true ∨ s.sync.state = .unsynced
  · have hsame : (if s.sync.accepted then s.atEvaluation else s.atEvaluation.missCycle) = s.atEvaluation := by
      split
      · rfl
      · next ha => exact missCycle_unsynced (hacted.resolve_left ha)
    rw [hsame]
    have hk := settle_kept s.atEvaluation
    have hsync : (settle s.atEvaluation).sync = s.sync := hk.sync
    refine ⟨⟨hk.sync.symm, (if_pos (by rw [hsync])).symm⟩, by rw [hk.clock, hclock], by rw [hk.clock]; rfl, by rw [hk.clock]; rfl, hk.cfg,
      fun _ => ⟨hsync, hk.trunkCount, hk.lock⟩, fun ha hu => ?_⟩
    rcases hacted with h | h
    · exact absurd (ha.symm.trans h) (by decide)
    · exact absurd h hu
  · obtain ⟨ha, hu⟩ := not_or.1 hacted
    rw [if_neg ha]
    obtain ⟨htiming, hclockMissed⟩ := missCycle_timing s.atEvaluation
    have hk := settle_kept s.atEvaluation.missCycle
    have hsync := hk.sync.trans (missCycle_sync s.atEvaluation)
    have hevents := missCycle_events s.atEvaluation
    have htimerKept : s.atEvaluation.missCycle.events.timer = s.atEvaluation.events.timer := by
      rw [hevents]
      split
      · rfl
      · exact (raise_rest ..).2.2.1
    refine ⟨⟨hk.sync.symm, ?_⟩, by rw [hk.clock, hclockMissed, hclock], by rw [hk.clock, hclockMissed]; rfl,
      by rw [hk.clock, hclockMissed]; rfl, hk.cfg.trans htiming.cfg, fun h => absurd h hacted, fun _ _ =>
      ⟨hk.trunkCount.trans (missCycle_trunkCount hu), fun hlock => ?_, fun hs => ?_, fun hs => ?_, fun hs => ?_⟩⟩
    · rw [htimerKept, hk.sync]
      exact hevents
    · rw [hk.lock, hk.enforcing]
      exact missCycle_lock ((lockInv_iff hr).1 hlock)
    all_goals
      have hs' : s.atEvaluation.sync.state = _ := hs
      rw [hsync, hs']
      rfl

/-! ### A trunk SYNC frame (R87, R88) -/

/-- A frame of another cycle length: counted, marked, and reported where the mark is not in effect (R87). -/
theorem mismatchSync_spec (s : State) (received : Word) :
    (s.mismatchSync received).events =
      (if s.sync.mismatchMark = some s.clock.number then s.events
       else s.events.raise .cycleMismatch (some .t) none s.clock.number received) ∧
    (s.mismatchSync received).sync = { s.sync with mismatchMark := some s.clock.number } ∧
    (s.mismatchSync received).clock = s.clock ∧
    (s.mismatchSync received).trunkCount = { s.trunkCount with mismatch := s.trunkCount.mismatch + 1 } := by
  unfold State.mismatchSync
  dsimp only
  split
  · next h =>
    have hm : s.sync.mismatchMark = some s.clock.number := (inEffect_iff _ _).1 h
    rw [if_pos hm, ← hm]
    exact ⟨rfl, rfl, rfl, rfl⟩
  · next h =>
    have hm : ¬s.sync.mismatchMark = some s.clock.number := fun hm => h ((inEffect_iff _ _).2 hm)
    rw [if_neg hm]
    exact ⟨rfl, rfl, rfl, rfl⟩

/-- A state whose sync record and trunk counters have taken an accepted sync. -/
def State.counted (s : State) (error : Int) : State :=
  (s.setSync { s.sync with accepted := true, lastError := some error }).setTrunk
    { s.trunkCount with accepted := s.trunkCount.accepted + 1 }

/-- The error of a sync frame from its nominal capture (R86). -/
def syncError (c : Params) (capture : Nat) : Int := (capture : Int) - (c.syncOffset : Int)

/-- The tests of a trunk SYNC frame, in their order (R87, R88). -/
theorem takeSync_eq (s : State) (capture : Nat) (length : Half) (n received : Word) : s.takeSync capture length n received =
    if length ≠ 8 then s.setTrunk { s.trunkCount with format := s.trunkCount.format + 1 }
    else if received.toNat ≠ s.cfg.active.params.cycleLength then s.mismatchSync received
    else if s.sync.state ≠ .unsynced ∧ ¬(-(s.cfg.active.params.halfWidth : Int) ≤ syncError s.cfg.active.params capture ∧
        syncError s.cfg.active.params capture ≤ (s.cfg.active.params.halfWidth : Int)) then
      s.setTrunk { s.trunkCount with outside := s.trunkCount.outside + 1 }
    else if s.sync.accepted = true then s.setTrunk { s.trunkCount with duplicate := s.trunkCount.duplicate + 1 }
    else (s.counted (syncError s.cfg.active.params capture)).actOnSync (syncError s.cfg.active.params capture) n := by
  have hwindow : s.cfg.active.params.halfWidth < (syncError s.cfg.active.params capture).natAbs ↔
      ¬(-(s.cfg.active.params.halfWidth : Int) ≤ syncError s.cfg.active.params capture ∧
        syncError s.cfg.active.params capture ≤ (s.cfg.active.params.halfWidth : Int)) := by omega
  simp only [← hwindow]
  rfl

/-- A sync that passes every test is accepted (R88). -/
theorem takeSync_accepted {s : State} {capture : Nat} {n received : Word} (hlen : received.toNat = s.cfg.active.params.cycleLength)
    (hwin : s.sync.state = .unsynced ∨ (syncError s.cfg.active.params capture).natAbs ≤ s.cfg.active.params.halfWidth)
    (ha : s.sync.accepted = false) :
    s.takeSync capture 8 n received =
      (s.counted (syncError s.cfg.active.params capture)).actOnSync (syncError s.cfg.active.params capture) n := by
  rw [takeSync_eq, if_neg (by decide), if_neg (not_not.2 hlen), if_neg, if_neg (by simp [ha])]
  rintro ⟨hs, hout⟩
  have := hwin.resolve_left hs
  omega

/-- An accepted sync that needs no step leaves the number, and counts nothing more. -/
theorem actOnSync_kept (s : State) (error : Int) (n : Word) :
    (s.actOnSync error n).sync.accepted = s.sync.accepted ∧ (s.actOnSync error n).sync.lastError = s.sync.lastError ∧
    (s.actOnSync error n).trunkCount = { s.trunkCount with steps := (s.actOnSync error n).trunkCount.steps } := by
  have hstep : (s.stepTo n).sync.accepted = s.sync.accepted ∧ (s.stepTo n).sync.lastError = s.sync.lastError ∧
      (s.stepTo n).trunkCount = { s.trunkCount with steps := (s.stepTo n).trunkCount.steps } := by
    obtain ⟨-, hsync, -, htrunk⟩ := stepTo_timing s n
    rw [hsync, htrunk]
    exact ⟨rfl, rfl, rfl⟩
  have hset (t : State) (x : SyncState) (ha : t.sync.accepted = s.sync.accepted) (he : t.sync.lastError = s.sync.lastError)
      (ht : t.trunkCount = s.trunkCount) :
      (t.setSyncState x).sync.accepted = s.sync.accepted ∧ (t.setSyncState x).sync.lastError = s.sync.lastError ∧
      (t.setSyncState x).trunkCount = { s.trunkCount with steps := (t.setSyncState x).trunkCount.steps } := by
    obtain ⟨-, hsync, -, -, htrunk⟩ := setSyncState_timing t x
    rw [hsync, htrunk, ht]
    exact ⟨ha, he, rfl⟩
  unfold State.actOnSync
  dsimp only
  split
  · exact hstep
  · split
    · exact hstep
    · split
      · exact hset _ _ rfl rfl rfl
      · exact ⟨rfl, rfl, rfl⟩
  · split
    · exact hstep
    · exact ⟨rfl, rfl, rfl⟩
  · split
    · exact hstep
    · exact hset _ _ rfl rfl rfl

/-- Settles O13: the tests of `takeSync` in their order. -/
theorem syncFrameIsJudgedInOrder : Obligations.SyncFrameIsJudgedInOrder := by
  rintro s capture length n received c error hr rfl rfl
  have hk := settle_kept (s.takeSync capture length n received)
  refine ⟨_, _, taken_running hr fun s => s.takeSync capture length n received, rfl,
    hk.cfg.trans (takeSync_timing ..).cfg, ?_⟩
  rw [hk.sync, hk.clock, hk.trunkCount]
  exact ite_of_eq_ite (takeSync_eq ..) (fun h => h ▸ ⟨rfl, rfl, rfl, rfl⟩) fun h =>
    ite_of_eq_ite h (fun h => h ▸ mismatchSync_spec s received) fun h =>
    ite_of_eq_ite h (fun h => h ▸ ⟨rfl, rfl, rfl, rfl⟩) fun h =>
    ite_of_eq_ite h (fun h => h ▸ ⟨rfl, rfl, rfl, rfl⟩) fun h => h ▸ actOnSync_kept ..

/-! ### An accepted sync (R90 to R94) -/

theorem needsStep_iff {s : State} {threshold : Nat} {error : Int} {n : Word} :
    needsStep s threshold error n = true ↔ threshold < error.natAbs ∨ n ≠ s.clock.number := by
  simp [needsStep]

section
variable {s : State} {error : Int} {n : Word}

theorem actOnSync_unsynced (hs : s.sync.state = .unsynced) : s.actOnSync error n = s.stepTo n := by
  unfold State.actOnSync
  rw [hs]

theorem actOnSync_acquiring (hs : s.sync.state = .acquiring) : s.actOnSync error n =
    if s.cfg.active.params.lockTolerance < error.natAbs ∨ n ≠ s.clock.number then s.stepTo n
    else if 3 ≤ s.sync.good + 1 then (s.setSync { s.sync with good := s.sync.good + 1 }).setSyncState .locked
    else s.setSync { s.sync with good := s.sync.good + 1 } := by
  unfold State.actOnSync
  simp only [hs, needsStep_iff]
  rfl

theorem actOnSync_locked (hs : s.sync.state = .locked) : s.actOnSync error n =
    if s.cfg.active.params.stepThreshold < error.natAbs ∨ n ≠ s.clock.number then s.stepTo n else s.slew error := by
  unfold State.actOnSync
  simp only [hs, needsStep_iff]

theorem actOnSync_holdover (hs : s.sync.state = .holdover) : s.actOnSync error n =
    if s.cfg.active.params.stepThreshold < error.natAbs ∨ n ≠ s.clock.number then s.stepTo n
    else ((s.slew error).setSync { (s.slew error).sync with missed := 0 }).setSyncState .locked := by
  unfold State.actOnSync
  simp only [hs, needsStep_iff]

end

/-- A step, on the state that has counted the sync. -/
theorem counted_stepTo (s : State) (error : Int) (n : Word) :
    ((s.counted error).stepTo n).clock =
      { s.clock with timer := s.cfg.active.params.syncOffset + 22, number := n, cycleEnd := s.cfg.active.params.cycleLength } ∧
    ((s.counted error).stepTo n).sync =
      ⟨.acquiring, 1, 0, true, some error, if n = s.clock.number then s.sync.mismatchMark else none⟩ ∧
    ((s.counted error).stepTo n).trunkCount =
      { s.trunkCount with accepted := s.trunkCount.accepted + 1, steps := s.trunkCount.steps + 1 } := by
  obtain ⟨-, hsync, hclock, htrunk⟩ := stepTo_timing (s.counted error) n
  exact ⟨hclock, hsync, htrunk⟩

/-- Settles O14: the rule of each sync state on the counted sync (`actOnSync_acquiring` and the others), a step by `counted_stepTo`. -/
theorem acceptedSyncActsByState : Obligations.AcceptedSyncActsByState := by
  rintro s capture n received c error hr rfl rfl hlen hwin ha
  have hk := settle_kept (s.takeSync capture 8 n received)
  have htake := takeSync_accepted (n := n) hlen hwin ha
  refine ⟨_, _, taken_running hr fun s => s.takeSync capture 8 n received, rfl, hk.cfg.trans (takeSync_timing ..).cfg, fun hlock => ?_,
    hk.sync.symm, ?_, ?_, ?_⟩
  · rw [hk.lock, hk.enforcing]
    exact takeSync_lock _ _ _ _ ((lockInv_iff hr).1 hlock)
  · rw [hk.sync, hk.clock, htake]
    exact actOnSync_events (s.counted _) _ n
  · rw [hk.clock, htake]
    exact actOnSync_classifier (s.counted _) _ n
  rw [hk.sync, hk.clock, hk.trunkCount, htake]
  generalize he : syncError s.cfg.active.params capture = error
  have he' : (capture : Int) - (s.cfg.active.params.syncOffset : Int) = error := he
  rw [he']
  have hstep := counted_stepTo s error n
  have hstate : (s.counted error).sync.state = s.sync.state := rfl
  cases hs : s.sync.state with
  | unsynced =>
    rw [actOnSync_unsynced (hstate.trans hs)]
    exact hstep
  | acquiring =>
    refine ite_of_eq_ite (actOnSync_acquiring (s := s.counted error) (hstate.trans hs)) (fun h => by rw [h]; exact hstep) fun h => ?_
    rw [h]
    split
    · next hgood =>
      obtain ⟨-, hsync, hclock, -, htrunk⟩ :=
        setSyncState_timing ((s.counted error).setSync { (s.counted error).sync with good := (s.counted error).sync.good + 1 }) .locked
      refine ⟨hclock, htrunk, ?_⟩
      rw [hsync, if_pos (show 3 ≤ s.sync.good + 1 from hgood)]
      rfl
    · next hgood =>
      rw [if_neg (show ¬3 ≤ s.sync.good + 1 from hgood), ← hs]
      exact ⟨rfl, rfl, rfl⟩
  | locked =>
    exact ite_of_eq_ite (actOnSync_locked (s := s.counted error) (hstate.trans hs)) (fun h => by rw [h]; exact hstep) fun h => by rw [h]; exact ⟨rfl, rfl, rfl⟩
  | holdover =>
    refine ite_of_eq_ite (actOnSync_holdover (s := s.counted error) (hstate.trans hs)) (fun h => by rw [h]; exact hstep) fun h => ?_
    obtain ⟨-, hsync, hclock, -, htrunk⟩ :=
      setSyncState_timing (((s.counted error).slew error).setSync { ((s.counted error).slew error).sync with missed := 0 }) .locked
    rw [h]
    exact ⟨hclock, htrunk, hsync⟩

end Sys2Proof.Machine
end

section
/-! A natural cycle start, block by block: the run-time records and marks (R25 to R27, R150), the branch sync frames (R101, R102), and what settling
leaves of them. -/

namespace Sys2Proof.Machine

open Sys2Proof

/-! ### What settling leaves of records and marks -/

/-- A record after late descriptors: only LATE and its mark have changed, and the mark to one number at most (R73, R74). -/
def LateFollows (k : Word) (r r' : StreamRecord) : Prop :=
  { r' with late := r.late, lateMark := r.lateMark } = r ∧ (r'.lateMark = r.lateMark ∨ r'.lateMark = some k)

theorem LateFollows.refl (k : Word) (r : StreamRecord) : LateFollows k r r := ⟨rfl, .inl rfl⟩

theorem updateRecord_follows {k : Word} {m : StreamNo} {f : StreamRecord → StreamRecord} {rs l : List StreamRecord}
    (hf : ∀ {r r'}, LateFollows k r r' → LateFollows k r (f r')) (h : List.Forall₂ (LateFollows k) rs l) :
    List.Forall₂ (LateFollows k) rs (updateRecord m f l) := by
  refine List.forall₂_map_right_iff.2 (h.imp fun r r' hr => ?_)
  split
  · exact hf hr
  · exact hr

/-- The accounting of a stale head changes one record's LATE and mark. -/
theorem accountStale_follows {s : State} {c : Configuration} {k : Word} {p : Port} {d : Descriptor} {rs : List StreamRecord}
    (h : List.Forall₂ (LateFollows k) rs s.classifier.records) :
    List.Forall₂ (LateFollows k) rs (s.accountStale c k p d).classifier.records := by
  by_cases hn : streamEntry c d.stream = none
  · rwa [(accountStale_noEntry hn).1]
  · by_cases hrep : s.reportsLate c k d
    · rw [((accountStale_entry hn).1 hrep).1]
      exact updateRecord_follows (fun hr => ⟨hr.1, .inr rfl⟩) h
    · rw [((accountStale_entry hn).2 hrep).1]
      exact updateRecord_follows (fun hr => hr) h

theorem accountStale_unknownMarks (s : State) (c : Configuration) (k : Word) (p : Port) (d : Descriptor) :
    (s.accountStale c k p d).classifier.unknownMarks = s.classifier.unknownMarks := by
  have hcount : (s.countLate c p d).classifier.unknownMarks = s.classifier.unknownMarks := by
    rw [countLate_classifier]
    split <;> rfl
  unfold State.accountStale State.reportLate
  split
  · exact hcount
  · split <;> exact hcount

theorem completeDrains_classifier (s : State) : s.completeDrains.classifier = s.classifier := by
  refine List.foldlRecOn (motive := fun t : State => t.classifier = s.classifier) _ _ rfl fun t ht p _ => ?_
  unfold State.completeDrain
  dsimp only
  split <;> exact ht

theorem eventWork_classifier (s : State) : s.eventWork.classifier = s.classifier := by
  unfold State.eventWork
  split
  · rfl
  · rw [(buildReport_rest _).2.1, (retransmit_rest _).2.1]
    rfl

/-- A condition on records and marks that the accounting of stale heads keeps is kept by settling. -/
theorem settle_classifier {E : Classifier → Prop} {s : State}
    (hE : ∀ (t : State) c p d, E t.classifier → E (t.accountStale c s.clock.number p d).classifier) (h : E s.classifier) :
    E (settle s).classifier := by
  have hclock : s.makeChoices.completeDrains.eventWork.clock.number = s.clock.number := by
    rw [(eventWork_kept _).clock, (completeDrains_kept _).clock, (makeChoices_kept s).clock]
  refine makeChoices_accounting (E := fun c _ => E c) (s := s.makeChoices.completeDrains.eventWork) (fun t c p d ht => ?_) ?_
  · rw [hclock]
    exact hE t c p d ht
  · rw [eventWork_classifier, completeDrains_classifier]
    exact makeChoices_accounting (E := fun c _ => E c) hE h

/-- Settling counts late descriptors in the records, and changes nothing else of them. -/
theorem settle_records (s : State) :
    List.Forall₂ (LateFollows s.clock.number) s.classifier.records (settle s).classifier.records :=
  settle_classifier (E := fun c => List.Forall₂ (LateFollows s.clock.number) s.classifier.records c.records)
    (fun _ _ _ _ ht => accountStale_follows ht) (List.forall₂_same.2 fun r _ => .refl _ r)

theorem settle_unknownMarks (s : State) : (settle s).classifier.unknownMarks = s.classifier.unknownMarks :=
  settle_classifier (E := fun c => c.unknownMarks = s.classifier.unknownMarks) (fun _ _ _ _ ht => (accountStale_unknownMarks ..).trans ht) rfl

/-- Settling leaves the pool mark. -/
theorem settle_poolMark (s : State) : (settle s).events.poolMark = s.events.poolMark := by
  have hchoices (t : State) : t.makeChoices.events.poolMark = t.events.poolMark :=
    makeChoices_events (E := fun e => e.poolMark = t.events.poolMark) (fun e k p n c d he => (raise_rest e k p n c d).2.2.2.trans he) rfl
  have hdrains (t : State) : t.completeDrains.events.poolMark = t.events.poolMark := by
    refine List.foldlRecOn (motive := fun u : State => u.events.poolMark = t.events.poolMark) _ _ rfl fun u hu p _ => ?_
    unfold State.completeDrain
    dsimp only
    split
    · exact (raise_rest ..).2.2.2.trans hu
    · exact hu
  have hoverflow (t : State) : t.queueOverflow.events.poolMark = t.events.poolMark := by
    show (t.events.queueOverflow t.clock.number).poolMark = _
    unfold EventUnit.queueOverflow
    split <;> rfl
  have hretransmit (t : State) : t.retransmit.events.poolMark = t.events.poolMark := by
    unfold State.retransmit
    split
    · split
      · rw [setEvents_appendOwn_events]
      · rfl
    · rfl
  have hbuild (t : State) : t.buildReport.events.poolMark = t.events.poolMark := by
    unfold State.buildReport
    split
    · rfl
    · split
      · rw [setEvents_appendOwn_events]
      · rfl
  have hwork (t : State) : t.eventWork.events.poolMark = t.events.poolMark := by
    unfold State.eventWork
    split
    · exact hoverflow t
    · rw [hbuild, hretransmit, hoverflow]
  rw [settle, hchoices, hwork, hdrains, hchoices]

/-! ### Records at the turn of a cycle (R25 to R27) -/

theorem foldl_offerSync_rest (ps : List Port) (s : State) : (ps.foldl State.offerSync s).classifier = s.classifier ∧
    (ps.foldl State.offerSync s).events = s.events := by
  refine List.foldlRecOn (motive := fun t : State => t.classifier = s.classifier ∧ t.events = s.events) _ _ ⟨rfl, rfl⟩ ?_
  rintro t ⟨hc, he⟩ p -
  obtain ⟨-, hclassifier, hevents, -⟩ := offerSync_rest t p
  exact ⟨hclassifier.trans hc, hevents.trans he⟩

theorem foldl_openAtZero_rest (ps : List Port) (s : State) : (ps.foldl State.openAtZero s).classifier = s.classifier ∧
    (ps.foldl State.openAtZero s).events = s.events ∧ (ps.foldl State.openAtZero s).ports = s.ports := by
  refine List.foldlRecOn (motive := fun t : State => t.classifier = s.classifier ∧ t.events = s.events ∧ t.ports = s.ports) _ _
    ⟨rfl, rfl, rfl⟩ ?_
  rintro t ⟨hc, he, hp⟩ p -
  unfold State.openAtZero
  split
  · obtain ⟨hports, -, -, hevents, hclassifier, -⟩ := takeOpening_spec t p
    exact ⟨hclassifier.trans hc, hevents.trans he, hports.trans hp⟩
  · exact ⟨hc, he, hp⟩

/-- Records, marks and notices of a natural cycle start: those of the cycle's work after a due swap. -/
theorem cycleStart_rest (s : State) :
    s.cycleStart.classifier =
      ({ s.turned.classifier with records := refill s.turned.cfg.active s.turned.classifier.records }).keepMarks (s.clock.number + 1) ∧
    s.cycleStart.events = { s.turned.events with poolMark := none } := by
  obtain ⟨-, -, -, -, -, -, -, hclock⟩ := turned_timing s
  obtain ⟨-, -, -, hevents, hclassifier, -⟩ := reevaluate_timing s.turned.beginCycle
  obtain ⟨hclassifier', hevents', -⟩ := foldl_openAtZero_rest Port.all
    (if s.turned.beginCycle.reevaluate.enforcing then Port.branches.foldl State.offerSync s.turned.beginCycle.reevaluate
      else s.turned.beginCycle.reevaluate).leaveExpiries
  have hsync : ∀ t : State, (if t.enforcing then Port.branches.foldl State.offerSync t else t).classifier = t.classifier ∧
      (if t.enforcing then Port.branches.foldl State.offerSync t else t).events = t.events := fun t => by
    split
    · exact foldl_offerSync_rest ..
    · exact ⟨rfl, rfl⟩
  obtain ⟨hclassifierSync, heventsSync⟩ := hsync s.turned.beginCycle.reevaluate
  refine ⟨(hclassifier'.trans (hclassifierSync.trans hclassifier)).trans ?_, hevents'.trans (heventsSync.trans hevents)⟩
  have hnumber : s.turned.clock.number = s.clock.number + 1 := by rw [hclock]
  rw [← hnumber]
  rfl

/-- The records at the turn of a cycle are those before it, or those rebuilt for the staged table. -/
theorem turned_records (s : State) : s.turned.classifier.unknownMarks = s.classifier.unknownMarks ∧
    (s.turned.cfg.active = s.cfg.active ∧ s.turned.classifier.records = s.classifier.records ∨
      s.turned.cfg.active = s.cfg.staged ∧ s.turned.classifier.records = rebuildRecords s.classifier.records s.cfg.staged) := by
  unfold State.turned
  split
  · exact ⟨rfl, .inr ⟨rfl, rfl⟩⟩
  · exact ⟨rfl, .inl ⟨rfl, rfl⟩⟩

theorem streamRecord_stream {rs : List StreamRecord} {n : StreamNo} {r : StreamRecord} (h : streamRecord rs n = some r) : r.stream = n := by
  simpa using List.find?_some h

/-- Among records of distinct streams, a record is the one its number finds. -/
theorem streamRecord_of_mem {rs : List StreamRecord} (h : (rs.map (·.stream)).Nodup) {r : StreamRecord} (hr : r ∈ rs) :
    streamRecord rs r.stream = some r := by
  unfold streamRecord
  induction rs with
  | nil => cases hr
  | cons x xs ih =>
    obtain ⟨hx, hxs⟩ := List.nodup_cons.1 h
    rcases List.mem_cons.1 hr with rfl | hr
    · simp
    · have hne : x.stream ≠ r.stream := fun heq => hx (List.mem_map.2 ⟨r, hr, heq.symm⟩)
      rw [List.find?_cons_of_neg (by simpa using hne)]
      exact ih hxs hr

/-- A stream of the table has a record, and no other has (R24). -/
theorem RecordsOk.record_iff {c : Configuration} {rs : List StreamRecord} (h : RecordsOk c rs) {n : StreamNo} :
    (∃ r, streamRecord rs n = some r) ↔ ∃ e ∈ c.streams, e.stream = n := by
  have hmem : n ∈ rs.map (·.stream) ↔ n ∈ c.streams.map (·.stream) := by rw [h.streams]
  rw [List.mem_map, List.mem_map] at hmem
  rw [← hmem]
  constructor
  · rintro ⟨r, hr⟩
    exact ⟨r, List.mem_of_find?_eq_some hr, streamRecord_stream hr⟩
  · rintro ⟨r, hr, rfl⟩
    exact ⟨r, streamRecord_of_mem (h.streams ▸ h.distinct) hr⟩

/-- A record rebuilt for a new table is the one its stream had, or a fresh one (R27). -/
theorem mem_rebuildRecords {old : List StreamRecord} {c : Configuration} {r : StreamRecord} (h : r ∈ rebuildRecords old c) :
    ∃ e ∈ c.streams, e.stream = r.stream ∧ (streamRecord old e.stream = some r ∨ streamRecord old e.stream = none ∧ r = freshRecord e) := by
  obtain ⟨e, he, rfl⟩ := List.mem_map.1 h
  refine ⟨e, he, ?_⟩
  cases hr : streamRecord old e.stream with
  | none => exact ⟨rfl, .inr ⟨rfl, rfl⟩⟩
  | some r => exact ⟨(streamRecord_stream hr).symm, .inl rfl⟩

/-- Two records of one stream agree in the six counters (R24). -/
def SameCounters (old r : StreamRecord) : Prop :=
  old.stream = r.stream ∧ old.received = r.received ∧ old.forwarded = r.forwarded ∧ old.policed = r.policed ∧
    old.oversize = r.oversize ∧ old.noQueue = r.noQueue ∧ old.late = r.late

/-- A record at the turn of a cycle: the one of its stream before it, or, of a stream that a swap brings, a fresh one. -/
theorem mem_turned {s : State} (h : s.RecordsHold) {r : StreamRecord} (hr : r ∈ s.turned.classifier.records) :
    streamRecord s.classifier.records r.stream = some r ∨
    streamRecord s.classifier.records r.stream = none ∧ ∃ e ∈ s.turned.cfg.active.streams, r = freshRecord e := by
  rcases (turned_records s).2 with ⟨-, hrecords⟩ | ⟨hactive, hrecords⟩
  · exact .inl (streamRecord_of_mem (h.streams ▸ h.distinct) (hrecords ▸ hr))
  · rw [hrecords] at hr
    obtain ⟨e, he, hes, hold⟩ := mem_rebuildRecords hr
    rw [hes] at hold
    rcases hold with hold | ⟨hnone, hfresh⟩
    · exact .inl hold
    · exact .inr ⟨hnone, e, hactive ▸ he, hfresh⟩

/-- The record of a stream in the cycle that begins: refilled, and with the marks that hold the new number (R25, R26). -/
def StreamRecord.renewed (c : Configuration) (k : Word) (r : StreamRecord) : StreamRecord :=
  ({ r with budgetRemaining := ((streamEntry c r.stream).map (·.budget)).getD 0, policedNow := 0 } : StreamRecord).keepMarks k

theorem cycleStart_records (s : State) : s.cycleStart.classifier.records =
    s.turned.classifier.records.map (StreamRecord.renewed s.turned.cfg.active (s.clock.number + 1)) := by
  rw [(cycleStart_rest s).1, Classifier.keepMarks, refill, List.map_map]
  rfl

theorem cycleStart_active (s : State) : s.cycleStart.cfg.active = s.turned.cfg.active := by
  obtain ⟨-, -, -, -, -, hcfg, -⟩ := cycleStart_timing s
  obtain ⟨-, -, -, -, -, hturned, -⟩ := turned_timing s
  rw [hcfg, hturned]

theorem keepMark_eq (k : Word) (m : Option Word) : keepMark k m = if m = some k then some k else none := by
  unfold keepMark
  split
  · next h => exact h
  · rfl

theorem renewed_budgets {c : Configuration} {rs : List StreamRecord} (k : Word) (hd : (c.streams.map (·.stream)).Nodup)
    (hs : rs.map (·.stream) = c.streams.map (·.stream)) :
    (rs.map (StreamRecord.renewed c k)).map (fun r => (r.stream, r.budgetRemaining, r.policedNow)) =
      c.streams.map fun e => (e.stream, e.budget, 0) := by
  have hbudget := congrArg (List.map fun n : StreamNo => (n, ((streamEntry c n).map (·.budget)).getD 0, (0 : Word))) hs
  rw [List.map_map, List.map_map] at hbudget
  rw [List.map_map]
  refine Eq.trans (List.map_congr_left fun r _ => rfl) (hbudget.trans (List.map_congr_left fun e he => ?_))
  simp [streamEntry_of_mem hd he]

theorem LateFollows.rest {k : Word} {r r' : StreamRecord} (h : LateFollows k r r') : r'.stream = r.stream ∧
    r'.budgetRemaining = r.budgetRemaining ∧ r'.policedNow = r.policedNow ∧ r'.policedMark = r.policedMark ∧
    r'.oversizeMark = r.oversizeMark := by
  obtain ⟨h, -⟩ := h
  rw [← h]
  exact ⟨rfl, rfl, rfl, rfl, rfl⟩

theorem exists_of_mem_right {α β : Type} {R : α → β → Prop} {l : List α} {l' : List β} (h : List.Forall₂ R l l') {b : β} (hb : b ∈ l') :
    ∃ a ∈ l, R a b := by
  induction h with
  | nil => cases hb
  | cons hr _ ih =>
    rcases List.mem_cons.1 hb with rfl | hb
    · exact ⟨_, List.mem_cons_self .., hr⟩
    · obtain ⟨a, ha, hab⟩ := ih hb
      exact ⟨a, List.mem_cons_of_mem _ ha, hab⟩

/-- A record after a natural cycle start, by the record of its stream before it (R25 to R27). -/
theorem cycleStart_record {s : State} (h : s.RecordsHold) {r : StreamRecord} (hr : r ∈ s.cycleStart.classifier.records) :
    (∃ old ∈ s.classifier.records, SameCounters old r ∧ streamRecord s.classifier.records r.stream = some old ∧
      r = old.renewed s.turned.cfg.active (s.clock.number + 1)) ∨
    streamRecord s.classifier.records r.stream = none ∧ r = ⟨r.stream, r.budgetRemaining, 0, 0, 0, 0, 0, 0, 0, none, none, none⟩ := by
  rw [cycleStart_records] at hr
  obtain ⟨old, hold, rfl⟩ := List.mem_map.1 hr
  rcases mem_turned h hold with hfound | ⟨hnone, e, -, rfl⟩
  · exact .inl ⟨old, List.mem_of_find?_eq_some hfound, ⟨rfl, rfl, rfl, rfl, rfl, rfl, rfl⟩, hfound, rfl⟩
  · exact .inr ⟨hnone, by simp [StreamRecord.renewed, StreamRecord.keepMarks, freshRecord, keepMark]⟩

/-- Settles O7: the records at the turn of the cycle (`mem_turned`), renewed by its work (`cycleStart_record`), of which settling changes LATE and its mark alone
(`settle_records`). -/
theorem cycleStartKeepsTheRecordsInStep : Obligations.CycleStartKeepsTheRecordsInStep := by
  refine ⟨fun s hr hconfig hrecord => ?_, fun s hconfig hrecord => ?_⟩
  · have hs : (s.runTo s.clock.cycleEnd).RecordsHold := (recordInv_iff hconfig.1).1 hrecord
    generalize hv : s.runTo s.clock.cycleEnd = v at hs
    have hclassifier : v.classifier = s.classifier := by rw [← hv]; rfl
    have hcfg : v.cfg = s.cfg := by rw [← hv]; rfl
    have hnumber : v.clock.number = s.clock.number := by rw [← hv]; rfl
    have hstart : v.cycleStart.RecordsHold := recordsHold_cycleStart (by rw [hcfg]; exact hconfig.2.1) hs
    have hclock : v.cycleStart.clock.number = s.clock.number + 1 := by
      obtain ⟨-, -, -, -, -, -, -, hclock, -⟩ := cycleStart_timing v
      rw [hclock, hnumber]
    have hactive (n : StreamNo) : (∃ r, streamRecord v.classifier.records n = some r) ↔ ∃ x ∈ s.cfg.active.streams, x.stream = n := by
      rw [hs.record_iff, hcfg]
    have hsettled := settle_records v.cycleStart
    rw [hclock] at hsettled
    refine ⟨v.cycleStart, settle v.cycleStart, ?_, rfl, hstart.streams, fun r hmem => ?_, ?_, ?_, fun p => ?_, fun r hmem => ?_⟩
    · rw [← hv]
      exact taken_running hr fun s => (s.runTo s.clock.cycleEnd).cycleStart
    · rcases cycleStart_record hs hmem with ⟨old, hold, hsame, hfound, -⟩ | ⟨hnone, hfresh⟩
      · rw [if_pos ((hactive _).1 ⟨old, hfound⟩), ← hclassifier]
        exact ⟨old, hold, hsame⟩
      · rw [if_neg fun hx => ?_]
        · exact hfresh
        · obtain ⟨r, hr⟩ := (hactive _).2 hx
          rw [hnone] at hr
          cases hr
    · have hmap : (settle v.cycleStart).classifier.records.map (fun r => (r.stream, r.budgetRemaining, r.policedNow)) =
          v.cycleStart.classifier.records.map fun r => (r.stream, r.budgetRemaining, r.policedNow) := by
        refine (List.forall₂_eq_eq_eq ▸ List.forall₂_map_left_iff.2 (List.forall₂_map_right_iff.2 (hsettled.imp fun r r' h => ?_)) : _ = _).symm
        obtain ⟨h1, h2, h3, -⟩ := h.rest
        rw [h1, h2, h3]
      rw [hmap, (settle_kept v.cycleStart).cfg, cycleStart_active, cycleStart_records]
      refine renewed_budgets _ (cycleStart_active v ▸ hstart.distinct) ?_
      have := hstart.streams
      rw [cycleStart_active, cycleStart_records, List.map_map] at this
      exact this
    · rw [settle_poolMark, (cycleStart_rest v).2]
    · rw [settle_unknownMarks, (cycleStart_rest v).1, ← hclassifier, ← hnumber]
      show ((v.turned.classifier.unknownMarks).map (keepMark _)).get p = _
      rw [PerPort.get_map, (turned_records v).1]
      exact keepMark_eq ..
    · obtain ⟨r', hr', hlate⟩ := exists_of_mem_right hsettled hmem
      obtain ⟨hstream, -, -, hpoliced, hoversize⟩ := hlate.rest
      have hmarks : ∀ old : StreamRecord, r' = old.renewed v.turned.cfg.active (v.clock.number + 1) →
          r'.policedMark = keepMark (s.clock.number + 1) old.policedMark ∧ r'.oversizeMark = keepMark (s.clock.number + 1) old.oversizeMark ∧
          r'.lateMark = keepMark (s.clock.number + 1) old.lateMark := by
        rintro old rfl
        rw [← hnumber]
        exact ⟨rfl, rfl, rfl⟩
      rw [hstream, hpoliced, hoversize, ← hclassifier]
      rcases cycleStart_record hs hr' with ⟨old, -, -, hfound, he⟩ | ⟨hnone, hfresh⟩
      · obtain ⟨h1, h2, h3⟩ := hmarks old he
        rw [h1, h2]
        refine ⟨?_, fun x hx => ?_⟩
        · rcases hlate.2 with h | h
          · rw [h, h3, keepMark_eq]
            split
            · exact .inr rfl
            · exact .inl rfl
          · exact .inr h
        · rw [hfound] at hx
          cases hx
          refine ⟨keepMark_eq .., keepMark_eq .., fun hl => ?_⟩
          rcases hlate.2 with h | h
          · rw [h, h3, hl, keepMark_eq, if_pos rfl]
          · exact h
      · refine ⟨?_, fun x hx => ?_⟩
        · rcases hlate.2 with h | h
          · rw [h, hfresh]
            exact .inl rfl
          · exact .inr h
        · rw [hnone] at hx
          cases hx
  · have hs := (recordInv_iff hconfig.1).1 hrecord
    refine ⟨rebuildRecords_streams .., rfl, fun r hmem e he hes => ?_⟩
    obtain ⟨e', he', hstream, hold⟩ := mem_rebuildRecords hmem
    have hsame : e' = e := by
      have h := streamEntry_of_mem hconfig.2.1.distinct he
      have h' := streamEntry_of_mem hconfig.2.1.distinct he'
      rw [hes, ← hstream, h'] at h
      exact Option.some.inj h
    subst hsame
    rw [hstream] at hold
    rcases hold with hfound | ⟨hnone, hfresh⟩
    · rw [if_pos (hs.record_iff.1 ⟨r, hfound⟩)]
      exact ⟨r, List.mem_of_find?_eq_some hfound, rfl, rfl, rfl, rfl, rfl, rfl, rfl⟩
    · rw [if_neg fun hx => ?_]
      · rw [hfresh]
        rfl
      · obtain ⟨r', hr'⟩ := hs.record_iff.2 hx
        rw [hnone] at hr'
        cases hr'

end Sys2Proof.Machine
end

section
/-! The branch sync frames of a natural cycle start (R101, R102). -/

namespace Sys2Proof.Machine

open Sys2Proof

/-- A port to which a branch sync frame is offered: it sends the frame where it is UP, OPEN and IDLE, and counts a skip where it is BUSY. -/
def PortUnit.offeredSync (source : Byte) (number : Word) (length : Nat) (u : PortUnit) : PortUnit :=
  if u.link = true ∧ u.admin = .opened then
    if u.tx.isIdle = true then { u with tx := .busy (.sync source number length) 32 32 }
    else { u with count := { u.count with syncSkipped := u.count.syncSkipped + 1 } }
  else u

theorem offerSync_ports (s : State) (p : Port) : (s.offerSync p).ports = s.ports.set p
    ((s.ports.get p).offeredSync s.straps.station s.clock.number s.cfg.active.params.cycleLength) := by
  unfold State.offerSync PortUnit.offeredSync
  dsimp only
  split
  · split <;> rfl
  · exact (PerPort.set_get ..).symm

/-- The frames offered to several ports. -/
theorem foldl_offerSync_port {ps : List Port} (hd : ps.Nodup) (s : State) (p : Port) : (ps.foldl State.offerSync s).ports.get p =
    if p ∈ ps then (s.ports.get p).offeredSync s.straps.station s.clock.number s.cfg.active.params.cycleLength else s.ports.get p := by
  induction ps generalizing s with
  | nil => rfl
  | cons q ps ih =>
    obtain ⟨hq, hps⟩ := List.nodup_cons.1 hd
    have hk := offerSync_kept s q
    rw [List.foldl_cons, ih hps, hk.straps, hk.clock, hk.cfg, offerSync_ports, PerPort.get_set]
    by_cases hp : p = q
    · subst hp
      simp [hq]
    · simp [hp]

/-- The ports after a natural cycle start: while enforcing every branch was offered the sync frame of the cycle that begins. -/
theorem cycleStart_port (s : State) (p : Port) : s.cycleStart.ports.get p =
    if s.cycleStart.lock = true ∧ p ≠ .t then
      (s.ports.get p).offeredSync s.straps.station (s.clock.number + 1) s.cycleStart.cfg.active.params.cycleLength
    else s.ports.get p := by
  have hk := cycleStart_kept s
  obtain ⟨-, hstraps, -, -, -, -, -, hclock⟩ := turned_timing s
  obtain ⟨ht, -, hc, -⟩ := reevaluate_timing s.turned.beginCycle
  have hturned : s.turned.ports = s.ports := by
    unfold State.turned
    split <;> rfl
  have hbegin : s.turned.beginCycle.reevaluate.ports = s.ports := ht.ports.trans hturned
  have hlast := (foldl_openAtZero_rest Port.all
    (if s.turned.beginCycle.reevaluate.enforcing then Port.branches.foldl State.offerSync s.turned.beginCycle.reevaluate
      else s.turned.beginCycle.reevaluate).leaveExpiries).2.2
  have hports : s.cycleStart.ports =
      (if s.turned.beginCycle.reevaluate.enforcing then Port.branches.foldl State.offerSync s.turned.beginCycle.reevaluate
        else s.turned.beginCycle.reevaluate).ports := hlast
  have hlock : s.cycleStart.lock = s.turned.beginCycle.reevaluate.enforcing := by rw [cycleStart_lock, hk.enforcing]
  have hbranch : p ∈ Port.branches ↔ p ≠ .t := by cases p <;> decide
  have hnumber : s.turned.beginCycle.reevaluate.clock.number = s.clock.number + 1 := by
    rw [hc]
    show s.turned.clock.number = _
    rw [hclock]
  have hstation : s.turned.beginCycle.reevaluate.straps = s.straps := ht.straps.trans hstraps
  rw [hports, hlock, hk.cfg]
  split
  · rw [foldl_offerSync_port (by decide), hbegin, hnumber, hstation]
    simp [*]
  · rw [hbegin]
    simp [*]

theorem elapse_isIdle (n : Nat) (x : Transmitter) : (x.elapse n).isIdle = x.isIdle := by
  cases x <;> rfl

/-- A port that byte times went by, that was then offered a sync frame or not, and that the follow-on steps found: which sync frame it sends, and whether it
counted a skip. -/
theorem offeredSync_spec {offered : Prop} [Decidable offered] {source : Byte} {number : Word} {length n : Nat} {u v w : PortUnit}
    (hv : v = if offered then (u.elapse n).offeredSync source number length else u.elapse n) (h : PortFollows v w) :
    (offered → u.link = true → u.admin = .opened → u.tx = .idle → w.tx = .busy (.sync source number length) 32 32) ∧
    (∀ a b c occ rem, w.tx = .busy (.sync a b c) occ rem → u.tx.isIdle = true →
      offered ∧ u.link = true ∧ u.admin = .opened ∧ a = source ∧ b = number ∧ c = length ∧ occ = 32 ∧ rem = 32) ∧
    w.count.syncSkipped = u.count.syncSkipped +
      if offered ∧ u.link = true ∧ u.admin = .opened ∧ u.tx.isIdle = false then 1 else 0 := by
  have hidle := elapse_isIdle n u.tx
  have hskipped : w.count.syncSkipped = v.count.syncSkipped := by rw [← h.count]
  have hsync : ∀ {a b c occ rem}, w.tx = .busy (.sync a b c) occ rem → v.tx = .busy (.sync a b c) occ rem := fun hw => by
    rcases h.tx with he | ⟨-, f, o, he, hf⟩
    · exact he.symm.trans hw
    · rw [he] at hw
      cases hw
      exact absurd rfl (hf _ _ _)
  have hbusy : v.tx.isIdle = false → w.tx = v.tx := fun hb => by
    rcases h.tx with he | ⟨he, -⟩
    · exact he
    · rw [he] at hb
      cases hb
  by_cases ho : offered ∧ u.link = true ∧ u.admin = .opened
  · obtain ⟨hoff, hl, ha⟩ := ho
    have hv : v = if u.tx.isIdle = true then { u.elapse n with tx := .busy (.sync source number length) 32 32 }
        else { u.elapse n with count := { u.count with syncSkipped := u.count.syncSkipped + 1 } } := by
      rw [hv, if_pos hoff, PortUnit.offeredSync, if_pos ⟨hl, ha⟩, ← hidle]
      rfl
    by_cases hi : u.tx.isIdle = true
    · rw [if_pos hi] at hv
      subst hv
      refine ⟨fun _ _ _ _ => hbusy rfl, fun a b c occ rem hw _ => ?_, ?_⟩
      · cases hsync hw
        exact ⟨hoff, hl, ha, rfl, rfl, rfl, rfl, rfl⟩
      · rw [hskipped, if_neg (by simp [hi])]
        exact (BitVec.add_zero _).symm
    · rw [if_neg hi] at hv
      subst hv
      refine ⟨fun _ _ _ hx => absurd ((isIdle_iff _).2 hx) hi, fun _ _ _ _ _ _ hx => absurd hx hi, ?_⟩
      rw [hskipped, if_pos ⟨hoff, hl, ha, by simpa using hi⟩]
  · have hv : v = u.elapse n := by
      rw [hv, PortUnit.offeredSync]
      split
      · next hoff => exact if_neg fun hx => ho ⟨hoff, hx⟩
      · rfl
    subst hv
    refine ⟨fun hoff hl ha => absurd ⟨hoff, hl, ha⟩ ho, fun a b c occ rem hw hx => ?_, ?_⟩
    · have htx : (u.elapse n).tx.isIdle = true := hidle.trans hx
      rw [hsync hw] at htx
      cases htx
    · rw [hskipped, if_neg fun hx => ho ⟨hx.1, hx.2.1, hx.2.2.1⟩]
      exact (BitVec.add_zero _).symm

/-- Settles O8: `cycleStart_port`, and that settling starts no sync frame and counts no skip (`settle_follows`). -/
theorem branchSyncFramesOnlyWhileEnforcing : Obligations.BranchSyncFramesOnlyWhileEnforcing := by
  intro s t p hr he
  have ht : t = settle (s.runTo s.clock.cycleEnd).cycleStart :=
    (Host.Outcome.next.inj ((taken_running hr fun s => (s.runTo s.clock.cycleEnd).cycleStart).symm.trans he)).symm
  have hk := settle_kept (s.runTo s.clock.cycleEnd).cycleStart
  have hport := cycleStart_port (s.runTo s.clock.cycleEnd) p
  have hfollows := (settle_follows (s.runTo s.clock.cycleEnd).cycleStart).ports p
  rw [← ht] at hk hfollows
  rw [← hk.lock, ← hk.cfg, show (s.runTo s.clock.cycleEnd).ports.get p = (s.ports.get p).elapse (s.clock.cycleEnd - s.clock.timer)
    from advance_port ..] at hport
  obtain ⟨hstart, honly, hskipped⟩ := offeredSync_spec hport hfollows
  refine ⟨fun hl hp => hstart ⟨hl, hp⟩, fun a b c occ rem hw hx => ?_, ?_⟩
  · obtain ⟨⟨hl, hp⟩, hrest⟩ := honly a b c occ rem hw hx
    exact ⟨hp, hl, hrest⟩
  · rw [hskipped]
    simp only [and_assoc, and_left_comm]

end Sys2Proof.Machine
end

section
/-! The port receivers, command by command: the start of a frame, its header decision, and its end by the receiver's state (R105 to R118). -/

namespace Sys2Proof.Machine

open Sys2Proof

theorem onRx_port (s : State) (p q : Port) (f : Reception → Reception) : (s.onRx p f).ports.get q =
    if q = p then { s.ports.get p with rx := f (s.ports.get p).rx } else s.ports.get q := by
  rw [State.onRx, State.onPort_ports, PerPort.get_set]

theorem onCount_port (s : State) (p q : Port) (f : PortCounters → PortCounters) : (s.onCount p f).ports.get q =
    if q = p then { s.ports.get p with count := f (s.ports.get p).count } else s.ports.get q := by
  rw [State.onCount, State.onPort_ports, PerPort.get_set]

/-- Settles O15: the receiver's record alone changes (`onRx_port`). -/
theorem frameStartBeginsAReception : Obligations.FrameStartBeginsAReception := by
  intro s p hr hl hidle
  have he : exec (.frameStart p) s = .next (settle (s.onRx p fun _ => Reception.begin (if p = .t then some s.clock.timer else none))) := by
    refine (taken_running hr _).trans ?_
    rw [if_pos ⟨hl, hidle⟩]
  refine ⟨_, he, ?_, fun q => ?_, fun q hq => ?_, rfl⟩
  · rw [onRx_port, if_pos rfl]
    rfl
  · rw [onRx_port]
    split
    · next hq => rw [hq]
    · rfl
  · rw [onRx_port, if_neg hq]

/-! ### The header decision (R111) -/

/-- What the routes of a header decision leave: the header and the byte count of its receiver, every class queue, and the own queue. -/
structure HeaderKept (p : Port) (s t : State) : Prop where
  header : (t.ports.get p).rx.header = (s.ports.get p).rx.header
  bytes : (t.ports.get p).rx.bytes = (s.ports.get p).rx.bytes
  queues : ∀ q, (t.ports.get q).queues = (s.ports.get q).queues
  own : t.own = s.own

namespace HeaderKept

theorem trans {p : Port} {s t u : State} (h : HeaderKept p s t) (k : HeaderKept p t u) : HeaderKept p s u :=
  ⟨k.header.trans h.header, k.bytes.trans h.bytes, fun q => (k.queues q).trans (h.queues q), k.own.trans h.own⟩

theorem same {p : Port} {s t : State} (hp : t.ports = s.ports) (ho : t.own = s.own) : HeaderKept p s t :=
  ⟨by rw [hp], by rw [hp], fun _ => by rw [hp], ho⟩

theorem onRx (s : State) (p : Port) {f : Reception → Reception} (hh : ∀ r, (f r).header = r.header) (hb : ∀ r, (f r).bytes = r.bytes) :
    HeaderKept p s (s.onRx p f) := by
  refine ⟨?_, ?_, fun q => ?_, rfl⟩
  · rw [onRx_port, if_pos rfl]
    exact hh _
  · rw [onRx_port, if_pos rfl]
    exact hb _
  · rw [onRx_port]
    split
    · next hq => rw [hq]
    · rfl

theorem onCount (s : State) (p : Port) (f : PortCounters → PortCounters) : HeaderKept p s (s.onCount p f) := by
  refine ⟨?_, ?_, fun q => ?_, rfl⟩
  · rw [onCount_port, if_pos rfl]
  · rw [onCount_port, if_pos rfl]
  · rw [onCount_port]
    split
    · next hq => rw [hq]
    · rfl

end HeaderKept

theorem enter_headerKept (s : State) (p : Port) (x : RxState) : HeaderKept p s (s.enter p x) := .onRx s p (fun _ => rfl) fun _ => rfl

theorem enterUnkept_headerKept (s : State) (p : Port) (d : Disposition) : HeaderKept p s (s.enterUnkept p d) :=
  .onRx s p (fun _ => rfl) fun _ => rfl

theorem reportExhausted_own (s : State) (p : Port) (n : Nat) : (s.reportExhausted p n).own = s.own := by
  unfold State.reportExhausted
  split <;> rfl

theorem claim_headerKept (s : State) (p : Port) (n : Nat) : HeaderKept p s (s.claim p n) := by
  unfold State.claim
  dsimp only
  split
  · exact HeaderKept.trans (t := s.setStore { s.store with free := s.store.free - blockNeed n }) (.same rfl rfl)
      (.onRx _ p (fun _ => rfl) fun _ => rfl)
  · exact ((HeaderKept.onCount s p _).trans (.same (reportExhausted_ports ..) (reportExhausted_own ..))).trans (enter_headerKept _ p _)

theorem decideHeader_headerKept (s : State) (p : Port) (h : Header) : HeaderKept p s (s.decideHeader p h) := by
  unfold State.decideHeader
  split
  · exact (HeaderKept.onCount s p _).trans (enter_headerKept _ p _)
  split
  · exact enterUnkept_headerKept ..
  split
  · exact enterUnkept_headerKept ..
  split
  · next hp =>
    obtain ⟨rfl, -⟩ := hp
    exact (enter_headerKept s .t .control).trans (.same rfl rfl)
  split
  · exact enterUnkept_headerKept ..
  split
  · exact enterUnkept_headerKept ..
  · exact claim_headerKept ..

theorem knownKind_iff {k : Byte} : knownKind k = true ↔ k ∈ ([0x01, 0x02, 0x03, 0x04, 0x05] : List Byte) := by
  simp only [knownKind, Bool.or_eq_true, decide_eq_true_eq, List.mem_cons, List.not_mem_nil, or_false, or_assoc]
  rfl

/-- A management request for this gate (R107). -/
theorem addressedHere_iff {s : State} {h : Header} : s.addressedHere h = true ↔ h.kind = 0x03 ∧ h.destination = s.straps.station := by
  simp only [State.addressedHere, Bool.and_eq_true, decide_eq_true_eq]
  rfl

/-- The tests of the header decision, in their order (R111). -/
theorem decideHeader_eq (s : State) (p : Port) (h : Header) : s.decideHeader p h =
    if 1024 < h.length.toNat then (s.onCount p fun k => { k with rxLength := k.rxLength + 1 }).enter p .dropped
    else if (s.ports.get p).admin = .drained then s.enterUnkept p .drained
    else if h.kind ∉ ([0x01, 0x02, 0x03, 0x04, 0x05] : List Byte) then s.enterUnkept p .unknownKind
    else if p = .t ∧ (h.kind = 0x02 ∨ h.kind = 0x03 ∧ h.destination = s.straps.station) then s.enterControl h
    else if h.kind = 0x02 then s.enterUnkept p .branchSync
    else if h.kind = 0x03 ∧ h.destination = s.straps.station then s.enterUnkept p .branchMgmt
    else if (h.length.toNat + 10 + 63) / 64 ≤ s.store.free then
      (s.setStore { s.store with free := s.store.free - (h.length.toNat + 10 + 63) / 64 }).onRx p fun r =>
        { r with state := .store, held := (h.length.toNat + 10 + 63) / 64 }
    else ((s.onCount p fun k => { k with rxNoBuffer := k.rxNoBuffer + 1 }).reportExhausted p s.store.free).enter p .dropped := by
  unfold State.decideHeader
  simp only [← addressedHere_iff, ← knownKind_iff, Bool.not_eq_true', Bool.not_eq_true]
  rfl

/-- A failed claim is reported where the pool mark is not in effect, and the mark is set (R150). -/
theorem reportExhausted_events (s : State) (p : Port) (n : Nat) : (s.reportExhausted p n).events =
    if s.events.poolMark = some s.clock.number then s.events
    else { s.events.raise .poolExhausted (some p) none s.clock.number (BitVec.ofNat 32 n) with poolMark := some s.clock.number } := by
  unfold State.reportExhausted
  split
  · next h => rw [if_pos ((inEffect_iff _ _).1 h)]
  · next h =>
    rw [if_neg fun hm => h ((inEffect_iff _ _).2 hm)]
    rfl

theorem reportExhausted_store (s : State) (p : Port) (n : Nat) : (s.reportExhausted p n).store = s.store := by
  unfold State.reportExhausted
  split <;> rfl

/-- The receiver's state in which a header decision finds the frame: the tenth byte has arrived, and the header is held. -/
def State.atHeader (s : State) (p : Port) (h : Header) : State :=
  (s.advance (10 - (s.ports.get p).rx.bytes)).onRx p (Reception.complete h)

theorem exec_headerDecision {s : State} {p : Port} (hr : s.resetHeld = false) (hx : (s.ports.get p).rx.state = .header) (h : Header) :
    exec (.headerDecision p h) s = .next (settle ((s.atHeader p h).decideHeader p h)) := by
  refine (taken_running hr _).trans ?_
  dsimp only
  rw [if_pos hx]
  rfl

/-- The port that a header decision finds. -/
theorem atHeader_port (s : State) (p : Port) (h : Header) : (s.atHeader p h).ports.get p =
    { (s.ports.get p).elapse (10 - (s.ports.get p).rx.bytes) with
      rx := Reception.complete h ((s.ports.get p).rx.elapse (10 - (s.ports.get p).rx.bytes)) } := by
  rw [State.atHeader, onRx_port, if_pos rfl, advance_port]
  rfl

theorem atHeader_queues (s : State) (p : Port) (h : Header) (q : Port) : ((s.atHeader p h).ports.get q).queues = (s.ports.get q).queues := by
  have hadvance (q : Port) : ((s.advance (10 - (s.ports.get p).rx.bytes)).ports.get q).queues = (s.ports.get q).queues := by
    rw [advance_port]
    rfl
  rw [State.atHeader, onRx_port]
  split
  · next hq =>
    subst hq
    exact hadvance q
  · exact hadvance q

theorem enterUnkept_spec (s : State) (p : Port) (d : Disposition) :
    ((s.enterUnkept p d).ports.get p).rx.state = .unkept ∧ ((s.enterUnkept p d).ports.get p).rx.disposition = some d ∧
    (s.enterUnkept p d).store = s.store ∧ ((s.enterUnkept p d).ports.get p).count = (s.ports.get p).count := by
  rw [State.enterUnkept, onRx_port, if_pos rfl]
  exact ⟨rfl, rfl, rfl, rfl⟩

theorem elapse_capture (n : Nat) (r : Reception) : (r.elapse n).capture = r.capture := by
  unfold Reception.elapse
  split <;> rfl

/-- A claim that fails: the frame is dropped and counted, and reported once a cycle (R65, R150). -/
theorem claimRefused_spec (s : State) (p : Port) :
    let u := ((s.onCount p fun k => { k with rxNoBuffer := k.rxNoBuffer + 1 }).reportExhausted p s.store.free).enter p .dropped
    (u.ports.get p).rx.state = .dropped ∧ u.store = s.store ∧ u.events.poolMark = some s.clock.number ∧
    u.events.timer = s.events.timer ∧
    u.events =
      (if s.events.poolMark = some s.clock.number then s.events
       else { s.events.raise .poolExhausted (some p) none s.clock.number (BitVec.ofNat 32 s.store.free) with poolMark := some s.clock.number }) ∧
    (u.ports.get p).count = { (s.ports.get p).count with rxNoBuffer := (s.ports.get p).count.rxNoBuffer + 1 } := by
  intro u
  have hevents : u.events = _ := reportExhausted_events (s.onCount p fun k => { k with rxNoBuffer := k.rxNoBuffer + 1 }) p s.store.free
  have hport : u.ports.get p = _ := onRx_port _ p p _
  rw [if_pos rfl, reportExhausted_ports, onCount_port, if_pos rfl] at hport
  refine ⟨by rw [hport], reportExhausted_store .., ?_, ?_, hevents, by rw [hport]⟩
  · rw [hevents]
    split
    · next hm => exact hm
    · rfl
  · rw [hevents]
    split
    · rfl
    · exact (raise_rest ..).2.2.1

/-- Settles O16: the tests of the decision in their order (`decideHeader_eq`), on the state at the tenth byte. -/
theorem headerDecisionRoutesTheFrame : Obligations.HeaderDecisionRoutesTheFrame := by
  intro s p x hr hx
  have hk := decideHeader_kept (s.atHeader p x) p x
  have hheader := decideHeader_headerKept (s.atHeader p x) p x
  have hport := atHeader_port s p x
  have hcount : ((s.atHeader p x).ports.get p).count = (s.ports.get p).count := by rw [hport]; rfl
  have hadmin : ((s.atHeader p x).ports.get p).admin = (s.ports.get p).admin := by rw [hport]; rfl
  have hunkept (d : Disposition) : (((s.atHeader p x).enterUnkept p d).ports.get p).rx.state = .unkept ∧
      (((s.atHeader p x).enterUnkept p d).ports.get p).rx.disposition = some d ∧
      ((s.atHeader p x).enterUnkept p d).store = s.store ∧
      (((s.atHeader p x).enterUnkept p d).ports.get p).count = (s.ports.get p).count := by
    rw [← hcount]
    exact enterUnkept_spec ..
  refine ⟨_, exec_headerDecision hr hx x, hheader.header.trans (by rw [hport]; rfl), hheader.bytes.trans (by rw [hport]; rfl), hk.cfg, hk.sync,
    hheader.own, fun q => (hheader.queues q).trans (atHeader_queues ..), ?_⟩
  have heq := decideHeader_eq (s.atHeader p x) p x
  rw [hadmin] at heq
  refine ite_of_eq_ite heq (fun h => ?long) fun heq => ite_of_eq_ite heq (fun h => h ▸ hunkept _) fun heq =>
    ite_of_eq_ite heq (fun h => h ▸ hunkept _) fun heq => ?_
  case long =>
    rw [h, State.enter, onRx_port, if_pos rfl, onCount_port, if_pos rfl, hcount]
    exact ⟨rfl, rfl, rfl⟩
  by_cases hcontrol : p = .t ∧ (x.kind = 0x02 ∨ x.kind = 0x03 ∧ x.destination = s.straps.station)
  · rw [if_pos hcontrol]
    have henter := heq.trans (if_pos hcontrol)
    obtain ⟨rfl, -⟩ := hcontrol
    rw [henter]
    refine ⟨rfl, rfl, hcount, ?_⟩
    have hcapture : ((s.atHeader .t x).ports.get .t).rx.capture = if x.kind = 0x02 then s.ports.t.rx.capture else none := by
      rw [hport, ← elapse_capture (10 - (s.ports.get .t).rx.bytes) s.ports.t.rx]
      rfl
    rw [← hcapture]
    rfl
  rw [if_neg hcontrol]
  refine ite_of_eq_ite (heq.trans (if_neg hcontrol)) (fun h => h ▸ hunkept _) fun heq => ite_of_eq_ite heq (fun h => h ▸ hunkept _) fun heq =>
    ite_of_eq_ite heq (fun h => ?granted) fun h => ?refused
  case granted =>
    rw [h, onRx_port, if_pos rfl]
    exact ⟨rfl, rfl, rfl, hcount⟩
  case refused =>
    obtain ⟨hstate, hstore, hmark, htimer, hevents, hcounted⟩ := claimRefused_spec (s.atHeader p x) p
    have hunit : (s.atHeader p x).events = { s.events with timer := (s.atHeader p x).events.timer } := rfl
    rw [h, htimer, ← hunit]
    exact ⟨hstate, hstore, hmark, hevents, hcounted.trans (by rw [hcount])⟩

/-! ### The end of a frame (R110, R114, R115) -/

theorem finishReception_port (s : State) (p : Port) : (s.finishReception p).ports.get p = { s.ports.get p with rx := .rest } := by
  have hrx : (s.onRx p fun _ => .rest).ports.get p = { s.ports.get p with rx := .rest } := (onRx_port ..).trans (if_pos rfl)
  unfold State.finishReception
  dsimp only
  split <;> exact hrx

/-- A state at the end of a reception, byte times after: the receiver is IDLE, and counters, store, records, sync and the pending-restart mark are as before. -/
def State.received (s : State) (p : Port) (n : Nat) : State := (s.advance n).finishReception p

theorem received_spec (s : State) (p : Port) (n : Nat) :
    ((s.received p n).ports.get p).rx.state = .idle ∧ ((s.received p n).ports.get p).count = (s.ports.get p).count ∧
    (s.received p n).store = s.store ∧ (s.received p n).classifier = s.classifier ∧ (s.received p n).sync = s.sync ∧
    (s.received p n).mgmt.restartPending = s.mgmt.restartPending := by
  have hk := finishReception_kept (s.advance n) p
  have hport := finishReception_port (s.advance n) p
  rw [advance_port] at hport
  unfold State.received
  refine ⟨by rw [hport]; rfl, by rw [hport]; rfl, ?_, ?_, hk.sync, by rw [hk.mgmt]; rfl⟩
  · unfold State.finishReception
    dsimp only
    split <;> rfl
  · unfold State.finishReception
    dsimp only
    split <;> rfl

/-- A frame whose header has arrived ends with the bytes after it. -/
theorem exec_frameEnd {s : State} {p : Port} {h : Header} (hr : s.resetHeld = false) (hh : (s.ports.get p).rx.header = some h)
    (hidle : (s.ports.get p).rx.state ≠ .idle) (hheader : (s.ports.get p).rx.state ≠ .header) (rest : List Byte) :
    exec (.frameEnd p rest) s =
      .next (settle ((s.advance (10 + rest.length - (s.ports.get p).rx.bytes)).endFrame p (s.ports.get p).rx h rest)) := by
  simp only [Machine.exec, execFrameEnd]
  rw [taken_running hr, hh]
  cases hs : (s.ports.get p).rx.state with
  | idle => exact absurd hs hidle
  | header => exact absurd hs hheader
  | store | control | unkept | dropped => rfl

theorem exec_frameEnd_runt {s : State} {p : Port} (hr : s.resetHeld = false) (hx : (s.ports.get p).rx.state = .header) {rest : List Byte}
    (hrest : rest.length < 10) :
    exec (.frameEnd p rest) s = .next (settle ((s.received p (rest.length - (s.ports.get p).rx.bytes)).onCount p fun k =>
      { k with rxCheck := k.rxCheck + 1 })) := by
  simp only [Machine.exec, execFrameEnd]
  rw [taken_running hr, hx]
  dsimp only
  rw [if_pos hrest]
  rfl

/-- A frame whose check bytes are those of its header and payload (R115). -/
def CheckRight (check : Word) (rest : List Byte) : Prop :=
  4 ≤ rest.length ∧ rest.drop (rest.length - 4) = be32 (~~~(crcBytes check (rest.take (rest.length - 4))))

/-- The end checks, in their order (R115). -/
theorem endFailure_of_bad_check {h : Header} {check : Word} {d : Option Disposition} {rest : List Byte} (hc : ¬CheckRight check rest) :
    endFailure h check d rest = some .check := by
  unfold endFailure
  dsimp only
  rw [if_pos]
  by_cases hlen : rest.length < 4
  · exact .inl hlen
  · exact .inr fun he => hc ⟨Nat.le_of_not_lt hlen, he⟩

theorem endFailure_of_right_check {h : Header} {check : Word} {d : Option Disposition} {rest : List Byte} (hc : CheckRight check rest) :
    endFailure h check d rest =
      if (rest.take (rest.length - 4)).length ≠ h.length.toNat then some .length
      else if d = some .unknownKind then some .kind else none := by
  obtain ⟨hlen, hcheck⟩ := hc
  have htake : (rest.take (rest.length - 4)).length = rest.length - 4 := by rw [List.length_take, Nat.min_eq_left (Nat.sub_le ..)]
  unfold endFailure
  dsimp only
  rw [if_neg, htake]
  rintro (h | h)
  · exact Nat.not_lt.2 hlen h
  · exact h hcheck

section
variable {s : State} {p : Port} {r : Reception} {h : Header} {rest : List Byte}

/-- A frame whose end checks are made, neither dropped nor found for a DRAINED port, is counted by the first that fails (R114, R115). -/
theorem endFrame_of_failure {f : EndFailure} (hdropped : r.state ≠ .dropped) (hdrained : ¬(r.state = .unkept ∧ r.disposition = some .drained))
    (hf : endFailure h r.check r.disposition rest = some f) :
    s.endFrame p r h rest = ((s.finishReception p).onCount p f.count).returnBlocks r.held := by
  unfold State.endFrame
  dsimp only
  rw [if_neg hdropped, if_neg hdrained, hf]

/-- It is delivered where none fails (R116). -/
theorem endFrame_of_pass (hdropped : r.state ≠ .dropped) (hdrained : ¬(r.state = .unkept ∧ r.disposition = some .drained))
    (hf : endFailure h r.check r.disposition rest = none) :
    s.endFrame p r h rest = (s.finishReception p).deliver p r h (rest.take (rest.length - 4)) s.control := by
  unfold State.endFrame
  dsimp only
  rw [if_neg hdropped, if_neg hdrained, hf]

/-! The routes of a delivery (R116). -/

variable {payload : List Byte} {c : Option ControlFrame}

theorem deliver_store (hx : r.state = .store) : s.deliver p r h payload c = (s.countFrame p).classify p h payload r.held := by
  unfold State.deliver
  rw [hx]

theorem deliver_branchSync (hx : r.state = .unkept) (hd : r.disposition = some .branchSync) :
    s.deliver p r h payload c = s.onCount p fun k => { k with rxSyncBranch := k.rxSyncBranch + 1 } := by
  unfold State.deliver
  rw [hx, hd]

theorem deliver_branchMgmt (hx : r.state = .unkept) (hd : r.disposition = some .branchMgmt) :
    s.deliver p r h payload c = s.onCount p fun k => { k with rxMgmtBranch := k.rxMgmtBranch + 1 } := by
  unfold State.deliver
  rw [hx, hd]

theorem deliver_control {x : ControlFrame} (hx : r.state = .control) :
    s.deliver p r h payload (some x) = s.deliverControl { x with payload := payload.take controlPayload } := by
  unfold State.deliver
  rw [hx]

/-! The hand-over of a control frame (R116). -/

variable {x : ControlFrame}

theorem deliverControl_sync {v : Nat} (hk : x.kind = kindSync) (hv : x.capture = some v) :
    s.deliverControl x = (s.countFrame .t).takeSync v x.length (wordAt x.payload 0) (wordAt x.payload 4) := by
  unfold State.deliverControl
  rw [if_pos hk, hv]

theorem deliverControl_noSource (hk : x.kind ≠ kindSync) (hs : x.source = 0 ∨ x.source = 255) :
    s.deliverControl x = s.onCount .t fun k => { k with rxMgmtSource := k.rxMgmtSource + 1 } := by
  unfold State.deliverControl
  rw [if_neg hk, if_pos hs]

theorem deliverControl_request (hk : x.kind ≠ kindSync) (hs : ¬(x.source = 0 ∨ x.source = 255)) :
    s.deliverControl x = (s.countFrame .t).deliverRequest x.source x.tag x.length x.payload := by
  unfold State.deliverControl
  rw [if_neg hk, if_neg hs]

end

theorem onCount_count (s : State) (p : Port) (f : PortCounters → PortCounters) :
    ((s.onCount p f).ports.get p).count = f (s.ports.get p).count := by
  rw [onCount_port, if_pos rfl]

theorem onCount_rx (s : State) (p : Port) (f : PortCounters → PortCounters) : ((s.onCount p f).ports.get p).rx = (s.ports.get p).rx := by
  rw [onCount_port, if_pos rfl]

/-- Settles O17: the receiver's state decides between runt, dropped, drained and the end checks, and these are made in order
(`endFailure_of_bad_check`, `endFailure_of_right_check`). -/
theorem frameEndJudgesByState : Obligations.FrameEndJudgesByState := by
  rintro s p rest r hr rfl
  refine ⟨fun hx hrest => ?_, fun h hh hidle hheader => ?_⟩
  · obtain ⟨hstate, hcount, hstore, -⟩ := received_spec s p (rest.length - (s.ports.get p).rx.bytes)
    exact ⟨_, exec_frameEnd_runt hr hx hrest, (onCount_rx ..).symm ▸ hstate, hstore, by rw [onCount_count, hcount]⟩
  generalize hn : 10 + rest.length - (s.ports.get p).rx.bytes = n
  obtain ⟨hstate, hcount, hstore, hclassifier, hsync, hpending⟩ := received_spec s p n
  refine ⟨_, hn ▸ exec_frameEnd hr hh hidle hheader rest, fun hdropped => ?_, fun hunkept hdrained => ?_, fun hdropped hdrained => ?_⟩
  · have he : (s.advance n).endFrame p (s.ports.get p).rx h rest = s.received p n := if_pos hdropped
    rw [he]
    exact ⟨hstate, hstore, hcount⟩
  · have he : (s.advance n).endFrame p (s.ports.get p).rx h rest =
        (s.received p n).onCount p fun k => { k with rxDrained := k.rxDrained + 1 } := by
      unfold State.endFrame
      dsimp only
      rw [if_neg (by rw [hunkept]; decide), if_pos ⟨hunkept, hdrained⟩]
      rfl
    rw [he, onCount_rx, onCount_count, hcount]
    exact ⟨hstate, hstore, rfl⟩
  · have hfailed (f : EndFailure) (hf : endFailure h (s.ports.get p).rx.check (s.ports.get p).rx.disposition rest = some f) :
        let u := (s.advance n).endFrame p (s.ports.get p).rx h rest
        ((u.ports.get p).rx.state = .idle ∧ u.store = { s.store with free := s.store.free + (s.ports.get p).rx.held } ∧
          u.classifier = s.classifier ∧ u.sync = s.sync ∧ u.mgmt.restartPending = s.mgmt.restartPending) ∧
        (u.ports.get p).count = f.count (s.ports.get p).count := by
      have he : (s.advance n).endFrame p (s.ports.get p).rx h rest =
          ((s.received p n).onCount p f.count).returnBlocks (s.ports.get p).rx.held := endFrame_of_failure hdropped hdrained hf
      intro u
      have hu : u = ((s.received p n).onCount p f.count).returnBlocks (s.ports.get p).rx.held := he
      rw [hu]
      refine ⟨⟨(onCount_rx ..).symm ▸ hstate, ?_, hclassifier, hsync, hpending⟩, ?_⟩
      · rw [← hstore]
        rfl
      · rw [← hcount]
        exact onCount_count ..
    refine ⟨fun hc => hfailed .check (endFailure_of_bad_check hc), fun hc hlen => hfailed .length ?_, fun hc hlen hd => hfailed .kind ?_⟩
    · rw [endFailure_of_right_check hc, if_pos hlen]
    · rw [endFailure_of_right_check hc, if_neg (not_not.2 hlen), if_pos hd]

/-! ### Delivery (R116) -/

theorem be32_length (x : Word) : (be32 x).length = 4 := rfl

/-- The end checks pass where the check bytes are right, the length is the declared one, and the kind is known. -/
theorem endFailure_of_right {h : Header} {check : Word} {d : Option Disposition} {payload bytes : List Byte}
    (hbytes : bytes = be32 (~~~(crcBytes check payload))) (hlen : payload.length = h.length.toNat) (hd : d ≠ some .unknownKind) :
    endFailure h check d (payload ++ bytes) = none := by
  have hfour : (payload ++ bytes).length - 4 = payload.length := by
    rw [List.length_append, hbytes, be32_length, Nat.add_sub_cancel]
  have hright : CheckRight check (payload ++ bytes) := by
    refine ⟨?_, ?_⟩
    · rw [List.length_append, hbytes, be32_length]
      exact Nat.le_add_left ..
    · rw [hfour, List.drop_left, List.take_left, hbytes]
  rw [endFailure_of_right_check hright, hfour, List.take_left, if_neg (not_not.2 hlen), if_neg hd]

/-- A frame that passes its end checks is delivered by its route. -/
theorem exec_frameEnd_delivered {s : State} {p : Port} {h : Header} {payload bytes : List Byte} (hr : s.resetHeld = false)
    (hh : (s.ports.get p).rx.header = some h) (hbytes : bytes = be32 (~~~(crcBytes (s.ports.get p).rx.check payload)))
    (hlen : payload.length = h.length.toNat) (hd : (s.ports.get p).rx.disposition ≠ some .unknownKind)
    (hx : (s.ports.get p).rx.state = .store ∨ (s.ports.get p).rx.state = .control ∨
      (s.ports.get p).rx.state = .unkept ∧ (s.ports.get p).rx.disposition ≠ some .drained) :
    exec (.frameEnd p (payload ++ bytes)) s =
      .next (settle ((s.received p (10 + payload.length + 4 - (s.ports.get p).rx.bytes)).deliver p (s.ports.get p).rx h payload s.control)) := by
  have hfour : (payload ++ bytes).length = payload.length + 4 := by rw [List.length_append, hbytes, be32_length]
  have hidle : (s.ports.get p).rx.state ≠ .idle := by rcases hx with h | h | ⟨h, -⟩ <;> rw [h] <;> decide
  have hheader : (s.ports.get p).rx.state ≠ .header := by rcases hx with h | h | ⟨h, -⟩ <;> rw [h] <;> decide
  have hdropped : (s.ports.get p).rx.state ≠ .dropped := by rcases hx with h | h | ⟨h, -⟩ <;> rw [h] <;> decide
  have hdrained : ¬((s.ports.get p).rx.state = .unkept ∧ (s.ports.get p).rx.disposition = some .drained) := by
    rintro ⟨hu, hdr⟩
    rcases hx with h | h | ⟨-, h⟩
    · exact absurd (hu.symm.trans h) (by decide)
    · exact absurd (hu.symm.trans h) (by decide)
    · exact h hdr
  rw [exec_frameEnd hr hh hidle hheader, endFrame_of_pass hdropped hdrained (endFailure_of_right hbytes hlen hd), hfour,
    Nat.add_sub_cancel, List.take_left, ← Nat.add_assoc]
  rfl

/-- Settles O18: the end checks pass (`endFailure_of_right`), and the route decides. -/
theorem deliveredFrameGoesByItsRoute : Obligations.DeliveredFrameGoesByItsRoute := by
  rintro s p h payload bytes r hr rfl hh hbytes hlen hd
  have hdelivered := exec_frameEnd_delivered hr hh hbytes hlen hd
  refine ⟨fun hx => ?_, fun hx hb => ?_, fun hx hb => ?_, fun c hp hx hc => ?_⟩
  · rw [hdelivered (.inl hx), deliver_store hx]
    rfl
  · rw [hdelivered (.inr (.inr ⟨hx, by rw [hb]; decide⟩)), deliver_branchSync hx hb]
    rfl
  · rw [hdelivered (.inr (.inr ⟨hx, by rw [hb]; decide⟩)), deliver_branchMgmt hx hb]
    rfl
  · subst hp
    have hcontrol := hdelivered (.inr (.inl hx))
    rw [hc, deliver_control hx] at hcontrol
    refine ⟨fun v hk hv => hcontrol.trans ?_, fun hk hs => hcontrol.trans ?_, fun hk h0 h255 => hcontrol.trans ?_⟩
    · rw [deliverControl_sync (x := { c with payload := payload.take controlPayload }) hk hv]
      rfl
    · have hsync : c.kind ≠ kindSync := by rw [hk]; decide
      rw [deliverControl_noSource (x := { c with payload := payload.take controlPayload }) hsync hs]
      rfl
    · have hsync : c.kind ≠ kindSync := by rw [hk]; decide
      rw [deliverControl_request (x := { c with payload := payload.take controlPayload }) hsync (not_or.2 ⟨h0, h255⟩)]
      rfl

end Sys2Proof.Machine
end

section
/-! The encodings: the frame check (R166), what a transmitter puts on the line (11.1, 11.4), and the bytes of a request (11.2). -/

namespace Sys2Proof.Machine

open Sys2Proof

/-! ### The register of the frame check (R166) -/

/-- A bit enters the register linearly. -/
theorem crcShift_xor (a b : Word) : crcShift (a ^^^ b) = crcShift a ^^^ crcShift b := by
  have hself (x y : Word) : x ^^^ crcGenerator ^^^ (y ^^^ crcGenerator) = x ^^^ y := by
    rw [BitVec.xor_comm y, ← BitVec.xor_assoc, BitVec.xor_assoc x, BitVec.xor_self, BitVec.xor_zero]
  unfold crcShift
  rw [BitVec.msb_xor, BitVec.shiftLeft_xor_distrib]
  cases ha : a.msb <;> cases hb : b.msb
  · rfl
  · exact BitVec.xor_assoc ..
  · rw [BitVec.xor_assoc, BitVec.xor_comm (b <<< 1), ← BitVec.xor_assoc]
    rfl
  · exact (hself _ _).symm

theorem repeat_crcShift_xor (n : Nat) (a b : Word) :
    Nat.repeat crcShift n (a ^^^ b) = Nat.repeat crcShift n a ^^^ Nat.repeat crcShift n b := by
  induction n with
  | zero => rfl
  | succ n ih => rw [Nat.repeat, ih, crcShift_xor]; rfl

/-- Bits that do not reach the top of the register are shifted. -/
theorem repeat_crcShift_low (n : Nat) {x : Word} (hn : n ≤ 32) (h : x.toNat < 2 ^ (32 - n)) : Nat.repeat crcShift n x = x <<< n := by
  induction n with
  | zero => simp [Nat.repeat]
  | succ n ih =>
    have hpow : 2 ^ (32 - n) = 2 ^ (32 - (n + 1)) * 2 := by rw [← Nat.pow_succ]; congr 1; omega
    have hsplit : 2 ^ (32 - (n + 1)) * 2 ^ n = 2 ^ 31 := by rw [← Nat.pow_add]; congr 1; omega
    have hlow : x.toNat * 2 ^ n < 2 ^ 31 := hsplit ▸ Nat.mul_lt_mul_of_pos_right h (Nat.two_pow_pos n)
    have hprev := ih (by omega) (by omega)
    have hmsb : (x <<< n).msb = false := by
      rw [BitVec.msb_eq_false_iff_two_mul_lt, BitVec.toNat_shiftLeft, Nat.shiftLeft_eq, Nat.mod_eq_of_lt (by omega)]
      omega
    rw [Nat.repeat, hprev, crcShift, hmsb, if_neg (by decide), BitVec.shiftLeft_add]

theorem repeat_add (f : Word → Word) (m n : Nat) (x : Word) : Nat.repeat f m (Nat.repeat f n x) = Nat.repeat f (n + m) x := by
  induction m with
  | zero => rfl
  | succ m ih => rw [Nat.repeat, ih]; rfl

/-- A byte that enters at the top of the register could have entered further down, before as many shifts. -/
theorem entering_eq (b : Byte) {k : Nat} (hk : k ≤ 24) : b.setWidth 32 <<< 24 = Nat.repeat crcShift k (b.setWidth 32 <<< (24 - k)) := by
  have hpow : 2 ^ 8 * 2 ^ (24 - k) = 2 ^ (32 - k) := by rw [← Nat.pow_add]; congr 1; omega
  have hle : 2 ^ (32 - k) ≤ 2 ^ 32 := Nat.pow_le_pow_right (by decide) (Nat.sub_le ..)
  have hlow : b.toNat * 2 ^ (24 - k) < 2 ^ (32 - k) := hpow ▸ Nat.mul_lt_mul_of_pos_right b.isLt (Nat.two_pow_pos _)
  have hbyte : (b.setWidth 32).toNat = b.toNat := by
    rw [BitVec.toNat_setWidth, Nat.mod_eq_of_lt (by have := b.isLt; omega)]
  rw [repeat_crcShift_low k (by omega), ← BitVec.shiftLeft_add, Nat.sub_add_cancel hk]
  rw [BitVec.toNat_shiftLeft, Nat.shiftLeft_eq, hbyte, Nat.mod_eq_of_lt (by omega)]
  exact hlow

/-- The bytes of a word, each at its place. -/
theorem bytes_of_word (x : Word) :
    (x.extractLsb' 24 8).setWidth 32 <<< 24 ^^^ (x.extractLsb' 16 8).setWidth 32 <<< 16 ^^^ (x.extractLsb' 8 8).setWidth 32 <<< 8 ^^^
      (x.extractLsb' 0 8).setWidth 32 = x := by
  refine BitVec.eq_of_getLsbD_eq fun i hi => ?_
  interval_cases i <;> simp

/-- A word that enters byte by byte enters as one, before 32 shifts. -/
theorem crcBytes_be32 (r x : Word) : crcBytes r (be32 x) = Nat.repeat crcShift 32 (r ^^^ x) := by
  have h := bytes_of_word x
  simp only [be32, crcBytes, List.foldl_cons, List.foldl_nil, crcByte]
  rw [entering_eq (x.extractLsb' 16 8) (k := 8) (by decide), entering_eq (x.extractLsb' 8 8) (k := 16) (by decide),
    entering_eq (x.extractLsb' 0 8) (k := 24) (by decide), ← repeat_crcShift_xor, repeat_add, ← repeat_crcShift_xor, repeat_add,
    ← repeat_crcShift_xor, repeat_add]
  simp only [Nat.reduceSub, Nat.reduceAdd, BitVec.shiftLeft_zero, BitVec.xor_assoc] at h ⊢
  rw [h]

theorem crcBytes_append (r : Word) (a b : List Byte) : crcBytes r (a ++ b) = crcBytes (crcBytes r a) b := List.foldl_append ..

/-- After the complement of the register has entered, the register holds the constant remainder. -/
theorem crcBytes_complement (r : Word) : crcBytes r (be32 (~~~r)) = 0xC704DD7B := by
  have hones : r ^^^ ~~~r = BitVec.allOnes 32 := by
    rw [← BitVec.allOnes_xor, BitVec.xor_comm, BitVec.xor_assoc, BitVec.xor_self, BitVec.xor_zero]
  have hfirst : Nat.repeat crcShift 8 (BitVec.allOnes 32) = 0x4E08BFB4 := by decide
  have hsecond : Nat.repeat crcShift 8 0x4E08BFB4 = 0x00B7647D := by decide
  have hthird : Nat.repeat crcShift 8 0x00B7647D = 0xB7647D00 := by decide
  have hfourth : Nat.repeat crcShift 8 0xB7647D00 = 0xC704DD7B := by decide
  rw [crcBytes_be32, hones, ← repeat_add crcShift 8 24, ← repeat_add crcShift 8 16, ← repeat_add crcShift 8 8, hfirst, hsecond, hthird,
    hfourth]

theorem crcBytes_frameCheck (bytes : List Byte) : crcBytes crcPreset (bytes ++ frameCheck bytes) = 0xC704DD7B := by
  rw [crcBytes_append]
  exact crcBytes_complement _

/-! ### The line of a port (11.1, 11.4) -/

/-- The line image of a frame, byte time by byte time. -/
theorem wireImage_get (x : FrameStore) (f : TxFrame) (i : Nat) :
    (i < 4 → (wireImage x f)[i]? = if i = 3 then some 0x4B else some 0xAA) ∧
    (4 ≤ i → i < 4 + (txFrameBytes x f).length → (wireImage x f)[i]? = (txFrameBytes x f)[i - 4]?) ∧
    (4 + (txFrameBytes x f).length ≤ i → i < 8 + (txFrameBytes x f).length →
      (wireImage x f)[i]? = (frameCheck (txFrameBytes x f))[i - (4 + (txFrameBytes x f).length)]?) ∧
    (8 + (txFrameBytes x f).length ≤ i → (wireImage x f)[i]? = none) := by
  have hstart : startSequence.length = 4 := rfl
  have hcheck : (frameCheck (txFrameBytes x f)).length = 4 := rfl
  have hhead : (startSequence ++ txFrameBytes x f).length = 4 + (txFrameBytes x f).length := by rw [List.length_append, hstart]
  unfold wireImage
  refine ⟨fun hi => ?_, fun hlow hi => ?_, fun hlow hi => ?_, fun hlow => ?_⟩
  · rw [List.append_assoc, List.getElem?_append_left (by rw [hstart]; exact hi)]
    interval_cases i <;> rfl
  · rw [List.getElem?_append_left (by rw [hhead]; exact hi), List.getElem?_append_right (by rw [hstart]; exact hlow), hstart]
  · rw [List.getElem?_append_right (by rw [hhead]; exact hlow), hhead]
  · rw [List.getElem?_eq_none]
    rw [List.length_append, hhead, hcheck]
    omega

/-- The nibbles of a byte (11.4). -/
theorem nibbles_eq (b : Byte) : ((b.setWidth 4, (b >>> 4).setWidth 4) : BitVec 4 × BitVec 4) = (b.extractLsb' 0 4, b.extractLsb' 4 4) := by
  refine Prod.ext ?_ ?_ <;> exact BitVec.eq_of_getLsbD_eq fun i hi => by simp [hi]

/-- The ten bytes of the header of a frame that the gate originates: hop limit 16, stream 0 (R106). -/
theorem originHeader_bytes (destination source kind : Byte) (length : Nat) (tag : Half) :
    headerBytes (originHeader destination source kind length tag) =
      [destination, source, kind, 16, 0, 0] ++ be16 (BitVec.ofNat 16 length) ++ be16 tag := by
  have hzero : be16 0 = [0, 0] := by decide
  unfold headerBytes originHeader originHop halfOf
  rw [hzero]
  rfl

theorem ownFrame_bytes (f : OwnFrame) : headerBytes f.header ++ f.payload =
    [f.destination, f.source, if f.kind = .response then 0x04 else 0x05, 16, 0, 0] ++ be16 (BitVec.ofNat 16 f.payload.length) ++
      be16 f.tag ++ f.payload := by
  unfold OwnFrame.header
  rw [originHeader_bytes]
  cases f.kind <;> rfl

theorem syncFrame_bytes (source : Byte) (number : Word) (len : Nat) : syncFrameBytes source number len =
    [255, source, 0x02, 16, 0, 0, 0, 8, 0, 0] ++ be32 number ++ be32 (BitVec.ofNat 32 len) := by
  have hlength : be16 (BitVec.ofNat 16 8) = [0, 8] := by decide
  have htag : be16 0 = [0, 0] := by decide
  rw [syncFrameBytes, originHeader_bytes, hlength, htag]
  rfl

/-- Settles O19: the register by its linearity (`crcBytes_be32`), the line by `wireImage_get`, the bytes of the three kinds of frame by their layouts. -/
theorem frameCheckLeavesTheConstantRemainder : Obligations.FrameCheckLeavesTheConstantRemainder := by
  refine ⟨crcBytes_frameCheck, fun s p => ⟨fun hidle => ?_, fun f occ rem hbusy => ?_, ?_⟩, fun x => ⟨fun d y hy => ?_, ownFrame_bytes,
    syncFrame_bytes⟩⟩
  · rw [State.lineByte, hidle]
  · have hline : s.lineByte p = (wireImage s.store f)[occ - rem]? := by rw [State.lineByte, hbusy]
    rw [hline]
    exact wireImage_get ..
  · exact congrArg (fun f => (s.lineByte p).map f) (funext nibbles_eq)
  · rw [txFrameBytes, hy]
    rfl

/-! ### The bytes of a request (11.2) -/

theorem half_bytes (x : Half) : x.extractLsb' 8 8 ++ x.extractLsb' 0 8 = x :=
  (BitVec.extractLsb'_append_extractLsb'_eq_extractLsb' (start₁ := 0) (len₁ := 8) (len₂ := 8) rfl).trans BitVec.extractLsb'_eq_self

theorem adjacent_bits (x : Word) (k n m : Nat) : x.extractLsb' (k + m) n ++ x.extractLsb' k m = x.extractLsb' k (n + m) :=
  BitVec.extractLsb'_append_extractLsb'_eq_extractLsb' rfl

theorem word_bytes (x : Word) : (x.extractLsb' 24 8 ++ x.extractLsb' 16 8 : Half) ++ (x.extractLsb' 8 8 ++ x.extractLsb' 0 8 : Half) = x := by
  have hhigh : x.extractLsb' 24 8 ++ x.extractLsb' 16 8 = x.extractLsb' 16 16 := adjacent_bits x 16 8 8
  have hlow : x.extractLsb' 8 8 ++ x.extractLsb' 0 8 = x.extractLsb' 0 16 := adjacent_bits x 0 8 8
  rw [hhigh, hlow]
  exact (adjacent_bits x 0 16 16).trans BitVec.extractLsb'_eq_self

theorem byteAt_append (l m : List Byte) (i : Nat) : byteAt (l ++ m) (l.length + i) = byteAt m i := by
  simp [byteAt, List.getD_eq_getElem?_getD, List.getElem?_append_right]

theorem byteAt_append_zero (l m : List Byte) : byteAt (l ++ m) l.length = byteAt m 0 := byteAt_append l m 0

theorem byteAt_after (l : List Byte) (x : Byte) (m : List Byte) : byteAt (l ++ ([x] ++ m)) l.length = x := byteAt_append_zero l ([x] ++ m)

theorem halfAt_after (l : List Byte) (x : Half) (m : List Byte) : halfAt (l ++ (be16 x ++ m)) l.length = x := by
  unfold halfAt
  rw [byteAt_append l (be16 x ++ m) 1, byteAt_append_zero]
  exact half_bytes x

theorem wordAt_after (l : List Byte) (x : Word) (m : List Byte) : wordAt (l ++ (be32 x ++ m)) l.length = x := by
  unfold wordAt halfAt
  rw [Nat.add_assoc, byteAt_append l (be32 x ++ m) 3, byteAt_append l (be32 x ++ m) 2, byteAt_append l (be32 x ++ m) 1,
    byteAt_append_zero]
  exact word_bytes x

/-- The bits of the presence mask are those of the parameters carried. -/
theorem paramsMask_bits (b : ParamsBody) :
    bitOf (paramsMask b) 0 = b.cycleLength.isSome ∧ bitOf (paramsMask b) 1 = b.syncOffset.isSome ∧
    bitOf (paramsMask b) 2 = b.halfWidth.isSome ∧ bitOf (paramsMask b) 3 = b.lockTolerance.isSome ∧
    bitOf (paramsMask b) 4 = b.stepThreshold.isSome ∧ bitOf (paramsMask b) 5 = b.holdoverLimit.isSome ∧
    bitOf (paramsMask b) 6 = b.policy.isSome ∧ bitOf (paramsMask b) 7 = b.retransmitTime.isSome := by
  unfold paramsMask
  generalize b.cycleLength.isSome = b0, b.syncOffset.isSome = b1, b.halfWidth.isSome = b2, b.lockTolerance.isSome = b3,
    b.stepThreshold.isSome = b4, b.holdoverLimit.isSome = b5, b.policy.isSome = b6, b.retransmitTime.isSome = b7
  revert b0 b1 b2 b3 b4 b5 b6 b7
  decide

theorem paramBytes_length {α : Type} {bytes : α → List Byte} {n : Nat} (h : ∀ x, (bytes x).length = n) (o : Option α) :
    (paramBytes o bytes).length = n * o.isSome.toNat := by
  cases o with
  | none => rfl
  | some x => exact (h x).trans (Nat.mul_one n).symm

/-- The place of the next parameter is past this one, where it is present. -/
theorem paramPlace_succ (mask : Byte) {bit n : Nat} (h : paramSizes[bit]? = some n) :
    paramPlace mask paramSizes (bit + 1) = paramPlace mask paramSizes bit + n * (bitOf mask bit).toNat := by
  have hnext : paramSizes.zipIdx[bit]? = some (n, bit) := by simp [List.getElem?_zipIdx, h]
  have hlist : ((paramSizes.zipIdx.take (bit + 1)).filter fun x => bitOf mask x.2) =
      ((paramSizes.zipIdx.take bit).filter fun x => bitOf mask x.2) ++ [(n, bit)].filter fun x => bitOf mask x.2 := by
    rw [List.take_add_one, hnext, List.filter_append]
    rfl
  unfold paramPlace
  rw [hlist, List.map_append, List.sum_append, ← Nat.add_assoc]
  cases hb : bitOf mask bit <;> simp [hb]

/-- A parameter that stands at the place of its bit is read back, and the next one stands at the place of the next bit. -/
theorem paramAt_next {α : Type} {bytes : α → List Byte} {read : List Byte → Nat → α} {n : Nat}
    (hread : ∀ l x m, read (l ++ (bytes x ++ m)) l.length = x) (hlen : ∀ x, (bytes x).length = n) {o : Option α}
    {body before behind : List Byte} {mask : Byte} {bit : Nat} (hmask : byteAt body 0 = mask) (hsize : paramSizes[bit]? = some n)
    (hbit : bitOf mask bit = o.isSome)
    (h : body = before ++ (paramBytes o bytes ++ behind) ∧ paramPlace mask paramSizes bit = before.length) :
    paramAt body read bit = o ∧
    (body = (before ++ paramBytes o bytes) ++ behind ∧
      paramPlace mask paramSizes (bit + 1) = (before ++ paramBytes o bytes).length) := by
  obtain ⟨hbody, hplace⟩ := h
  refine ⟨?_, hbody.trans (List.append_assoc ..).symm, ?_⟩
  · unfold paramAt
    rw [hmask, hbit, hplace]
    cases o with
    | none => rfl
    | some x =>
      rw [hbody]
      exact congrArg some (hread before x behind)
  · rw [paramPlace_succ _ hsize, hplace, hbit, List.length_append, paramBytes_length hlen]

theorem paramsBodyBytes_length (b : ParamsBody) : (paramsBodyBytes b).length = paramsBodySize b := by
  have hword : ∀ x : Word, (be32 x).length = 4 := fun _ => rfl
  have hhalf : ∀ x : Half, (be16 x).length = 2 := fun _ => rfl
  have hbyte : ∀ x : Byte, [x].length = 1 := fun _ => rfl
  simp only [paramsBodyBytes, List.length_cons, List.length_append, paramBytes_length hword, paramBytes_length hhalf, paramBytes_length hbyte,
    paramsBodySize]
  omega

/-- The body of STAGE_PARAMS is read back from its bytes: each parameter from the place after those present before it. -/
theorem paramsBodyAt_bytes (b : ParamsBody) : paramsBodyAt (paramsBodyBytes b) = b := by
  have hword : ∀ x : Word, (be32 x).length = 4 := fun _ => rfl
  have hhalf : ∀ x : Half, (be16 x).length = 2 := fun _ => rfl
  have hbyte : ∀ x : Byte, [x].length = 1 := fun _ => rfl
  obtain ⟨b0, b1, b2, b3, b4, b5, b6, b7⟩ := paramsMask_bits b
  have hbody : paramsBodyBytes b = [paramsMask b] ++ (paramBytes b.cycleLength be32 ++ (paramBytes b.syncOffset be32 ++
      (paramBytes b.halfWidth be16 ++ (paramBytes b.lockTolerance (fun x => [x]) ++ (paramBytes b.stepThreshold be16 ++
      (paramBytes b.holdoverLimit (fun x => [x]) ++ (paramBytes b.policy (fun x => [x]) ++
      (paramBytes b.retransmitTime (fun x => [x]) ++ [])))))))) := by
    simp only [paramsBodyBytes, List.append_assoc, List.append_nil]
    rfl
  obtain ⟨h0, hnext⟩ := paramAt_next (mask := paramsMask b) wordAt_after hword rfl rfl b0 ⟨hbody, rfl⟩
  obtain ⟨h1, hnext⟩ := paramAt_next (mask := paramsMask b) wordAt_after hword rfl rfl b1 hnext
  obtain ⟨h2, hnext⟩ := paramAt_next (mask := paramsMask b) halfAt_after hhalf rfl rfl b2 hnext
  obtain ⟨h3, hnext⟩ := paramAt_next (mask := paramsMask b) byteAt_after hbyte rfl rfl b3 hnext
  obtain ⟨h4, hnext⟩ := paramAt_next (mask := paramsMask b) halfAt_after hhalf rfl rfl b4 hnext
  obtain ⟨h5, hnext⟩ := paramAt_next (mask := paramsMask b) byteAt_after hbyte rfl rfl b5 hnext
  obtain ⟨h6, hnext⟩ := paramAt_next (mask := paramsMask b) byteAt_after hbyte rfl rfl b6 hnext
  obtain ⟨h7, -⟩ := paramAt_next (mask := paramsMask b) byteAt_after hbyte rfl rfl b7 hnext
  unfold paramsBodyAt
  rw [h0, h1, h2, h3, h4, h5, h6, h7]

/-- The operation of a code, as a delivered frame selects it (11.2). -/
def State.carryOut (s : State) (h : RequestHead) (code : Byte) (b : List Byte) : State :=
  match code.toNat with
  | 0x01 => s.openRequest h (byteAt b 0) (halfAt b 1)
  | 0x02 => s.closeRequest h
  | 0x03 => s.renewRequest h
  | 0x04 => s.readBySelector h b
  | 0x05 => s.ackRequest h (halfAt b 0)
  | 0x10 => s.stageStreamBy h b
  | 0x11 => s.stageWindowBy h b
  | 0x12 => s.stageParams h (paramsBodyAt b)
  | 0x13 => s.commitRequest h (wordAt b 0)
  | 0x14 => s.abortRequest h (byteAt b 0) (halfAt b 1)
  | 0x20 => s.drainRequest h (byteAt b 0) (byteAt b 1)
  | 0x21 => s.resumeRequest h (byteAt b 0)
  | 0x22 => s.clearRequest h
  | 0x23 => s.restartRequest h
  | _ => s.unknownRequest h code

/-- A delivered frame that declares the length of its code, flags and body is carried out by its code. -/
theorem deliverRequest_eq (s : State) (h : RequestHead) (code : Byte) {body : List Byte} (hlen : h.length.toNat = body.length + 2)
    (hbody : dependsOnBody code = true → body ≠ []) :
    s.deliverRequest h.source h.tag h.length (code :: h.flags :: body) = s.carryOut h code body := by
  have hc : ¬(h.length.toNat < 2 ∨ h.length.toNat = 2 ∧ dependsOnBody code = true) := by
    rintro (hlt | ⟨htwo, hd⟩)
    · omega
    · exact hbody hd (List.length_eq_zero_iff.1 (by omega))
  exact if_neg hc

theorem requestBody_length {c : Instr} {q : RequestRow} (h : requestRow c = some q) : (requestBody c).length = q.bodyLength := by
  cases c <;> cases h
  case stageParams r b => exact paramsBodyBytes_length b
  all_goals rfl

/-- The operation of a request row is the one that its code, and the first byte of its body where there are several, select, on the fields read back from
its bytes. -/
theorem requestRow_carriedOut {c : Instr} {q : RequestRow} (hq : requestRow c = some q) : ∃ f : State → State,
    (∀ s, exec c s = taken s f) ∧ (∀ s, s.carryOut q.head q.code (requestBody c) = f s) ∧
    (dependsOnBody q.code = true → requestBody c ≠ []) := by
  have hshort (code : Byte) {body : List Byte} (hcode : dependsOnBody code = false) : dependsOnBody code = true → body ≠ [] :=
    fun h => absurd (hcode.symm.trans h) (by decide)
  have hlong {code x : Byte} {body : List Byte} : dependsOnBody code = true → x :: body ≠ [] := fun _ => List.cons_ne_nil _ _
  cases c <;> cases hq
  case closeSession r => exact ⟨fun s => s.closeRequest r, fun _ => rfl, fun _ => rfl, hshort 0x02 (by decide)⟩
  case renew r => exact ⟨fun s => s.renewRequest r, fun _ => rfl, fun _ => rfl, hshort 0x03 (by decide)⟩
  case readIdentity r => exact ⟨fun s => s.readIdentity r, fun _ => rfl, fun _ => rfl, hlong⟩
  case readStream r copy stream =>
    exact ⟨fun s => s.readStream r copy stream, fun _ => rfl, fun s => congrArg (s.readStream r copy) (half_bytes stream), hlong⟩
  case readWindow r copy port index => exact ⟨fun s => s.readWindow r copy port index, fun _ => rfl, fun _ => rfl, hlong⟩
  case readParams r copy => exact ⟨fun s => s.readParams r copy, fun _ => rfl, fun _ => rfl, hlong⟩
  case readStreamCounters r stream =>
    exact ⟨fun s => s.readStreamCounters r stream, fun _ => rfl, fun s => congrArg (s.readStreamCounters r) (half_bytes stream), hlong⟩
  case readPort r port => exact ⟨fun s => s.readPort r port, fun _ => rfl, fun _ => rfl, hlong⟩
  case readSync r => exact ⟨fun s => s.readSync r, fun _ => rfl, fun _ => rfl, hlong⟩
  case readSessions r => exact ⟨fun s => s.readSessions r, fun _ => rfl, fun _ => rfl, hlong⟩
  case readEvents r => exact ⟨fun s => s.readEvents r, fun _ => rfl, fun _ => rfl, hlong⟩
  case readCommit r => exact ⟨fun s => s.readCommit r, fun _ => rfl, fun _ => rfl, hlong⟩
  case ack r n =>
    exact ⟨fun s => s.ackRequest r n, fun _ => rfl, fun s => congrArg (s.ackRequest r) (half_bytes n), hshort 0x05 (by decide)⟩
  case stageStreamPut r b =>
    have hfields : streamBodyAt (requestBody (.stageStreamPut r b)) = b := by
      have hstream := half_bytes b.stream
      have hpayload := half_bytes b.maxPayload
      cases b
      exact StreamBody.mk.injEq .. ▸ ⟨hstream, rfl, rfl, rfl, hpayload, rfl, rfl, rfl⟩
    exact ⟨fun s => s.stageStreamPut r b, fun _ => rfl, fun s => congrArg (s.stageStreamPut r) hfields, hlong⟩
  case stageStreamDelete r stream =>
    exact ⟨fun s => s.stageStreamDelete r stream, fun _ => rfl, fun s => congrArg (s.stageStreamDelete r) (half_bytes stream), hlong⟩
  case stageWindowPut r b =>
    have hfields : windowBodyAt (requestBody (.stageWindowPut r b)) = b := by
      have hstart := word_bytes b.start
      have hlength := word_bytes b.length
      cases b
      exact WindowBody.mk.injEq .. ▸ ⟨rfl, hstart, hlength, rfl⟩
    exact ⟨fun s => s.stageWindowPut r b, fun _ => rfl, fun s => congrArg (s.stageWindowPut r) hfields, hlong⟩
  case stageWindowDelete r port start =>
    exact ⟨fun s => s.stageWindowDelete r port start, fun _ => rfl, fun s => congrArg (s.stageWindowDelete r port) (word_bytes start), hlong⟩
  case stageWindowClearPort r port => exact ⟨fun s => s.stageWindowClearPort r port, fun _ => rfl, fun _ => rfl, hlong⟩
  case stageParams r b =>
    exact ⟨fun s => s.stageParams r b, fun _ => rfl, fun s => congrArg (s.stageParams r) (paramsBodyAt_bytes b), hlong⟩
  case commit r target =>
    exact ⟨fun s => s.commitRequest r target, fun _ => rfl, fun s => congrArg (s.commitRequest r) (word_bytes target), hshort 0x13 (by decide)⟩
  case abort r option expected =>
    exact ⟨fun s => s.abortRequest r option expected, fun _ => rfl, fun s => congrArg (s.abortRequest r option) (half_bytes expected),
      hshort 0x14 (by decide)⟩
  case drain r port option => exact ⟨fun s => s.drainRequest r port option, fun _ => rfl, fun _ => rfl, hshort 0x20 (by decide)⟩
  case resume r port => exact ⟨fun s => s.resumeRequest r port, fun _ => rfl, fun _ => rfl, hshort 0x21 (by decide)⟩
  case clearCounters r => exact ⟨fun s => s.clearRequest r, fun _ => rfl, fun _ => rfl, hshort 0x22 (by decide)⟩
  case restart r => exact ⟨fun s => s.restartRequest r, fun _ => rfl, fun _ => rfl, hshort 0x23 (by decide)⟩

/-- Settles O20: each row's operation is the one that its bytes select (`requestRow_carriedOut`), and a frame that declares their length is carried out by
them (`deliverRequest_eq`). -/
theorem deliveredBytesSpellTheRequest : Obligations.DeliveredBytesSpellTheRequest := by
  refine ⟨fun s c q hq hlen => ?_, fun s r mode lease hlen => ?_⟩
  · have hbody := requestBody_length hq
    obtain ⟨f, hexec, hf, hlong⟩ := requestRow_carriedOut hq
    refine ⟨hbody, (hexec s).trans ?_⟩
    congr 1
    funext s
    exact ((deliverRequest_eq s q.head q.code (by rw [hbody, hlen]) hlong).trans (hf s)).symm
  · have hshort : dependsOnBody 0x01 = true → requestBody (.openSession r mode lease) ≠ [] := fun _ => List.cons_ne_nil _ _
    show taken s (fun s => s.openRequest r mode lease) = _
    congr 1
    funext s
    exact ((deliverRequest_eq s r 0x01 (body := requestBody (.openSession r mode lease)) hlen hshort).trans (congrArg (s.openRequest r mode) (half_bytes lease))).symm

end Sys2Proof.Machine
end

section
/-! An accepted data-path frame (R30 to R39): its budget and counters, and what each port makes of it. -/

namespace Sys2Proof.Machine

open Sys2Proof

/-- The record of an accepted frame's stream, with one of its budget used where it has one (R34). -/
def StreamRecord.budgeted (e : StreamEntry) (r : StreamRecord) : StreamRecord :=
  { r with budgetRemaining := if e.budget = 0 then r.budgetRemaining else r.budgetRemaining - 1 }

/-- A state that has taken one of a stream's budget for a frame (R34). -/
def State.takeBudget (s : State) (e : StreamEntry) : State :=
  if e.budget = 0 then s else s.onRecord e.stream fun r => { r with budgetRemaining := r.budgetRemaining - 1 }

theorem takeBudget_rest (s : State) (e : StreamEntry) : (s.takeBudget e).ports = s.ports ∧ (s.takeBudget e).store = s.store ∧
    (s.takeBudget e).clock = s.clock ∧ (s.takeBudget e).events = s.events := by
  unfold State.takeBudget
  split <;> exact ⟨rfl, rfl, rfl, rfl⟩

theorem takeBudget_record {s : State} {e : StreamEntry} {r : StreamRecord} (hr : streamRecord s.classifier.records e.stream = some r) :
    streamRecord (s.takeBudget e).classifier.records e.stream = some (r.budgeted e) := by
  unfold State.takeBudget StreamRecord.budgeted
  split
  · exact hr
  · have h : (s.onRecord e.stream fun r => { r with budgetRemaining := r.budgetRemaining - 1 }).classifier.records =
        updateRecord e.stream (fun r => { r with budgetRemaining := r.budgetRemaining - 1 }) s.classifier.records := rfl
    rw [h, streamRecord_updateRecord_same (f := fun r => { r with budgetRemaining := r.budgetRemaining - 1 }) (fun _ => rfl), hr]
    rfl

/-- A frame that passes the five checks is accepted (R30 to R35). -/
theorem classify_accepted {s : State} {p : Port} {h : Header} {payload : List Byte} {held : Nat} {e : StreamEntry} {r : StreamRecord}
    (hh : h.hopLimit ≠ 0) (he : streamEntry s.cfg.active (streamNo h) = some e) (hr : streamRecord s.classifier.records e.stream = some r)
    (hp : p = e.ingress) (hl : payload.length ≤ e.maxPayload) (hb : e.budget = 0 ∨ r.budgetRemaining ≠ 0) :
    s.classify p h payload held = (s.takeBudget e).acceptFrame e h payload held := by
  have hpoliced : ¬(e.budget ≠ 0 ∧ r.budgetRemaining = 0) := fun ⟨h1, h2⟩ => hb.elim h1 fun h => h h2
  simp only [State.classify, if_neg hh, he, hr, if_neg (not_not.2 hp), if_neg (not_lt.2 hl), Option.getD_some, if_neg hpoliced]
  rfl

section
variable {s : State} {e : StreamEntry} {payload : List Byte}

/-- The six items of the descriptor of a frame accepted at this instant (R38). -/
theorem takeBudget_descriptor (s : State) (e : StreamEntry) (payload : List Byte) : (s.takeBudget e).frameDescriptor e payload =
    ⟨s.store.freshRef, e.stream, payload.length, e.cls, s.clock.number + BitVec.ofNat 32 e.lifetime - 1, e.report.late⟩ := by
  obtain ⟨-, hstore, hclock, -⟩ := takeBudget_rest s e
  unfold State.frameDescriptor
  rw [hstore, hclock]
  rfl

end

/-- How many ports of an egress set refuse a descriptor. -/
theorem refusing_length (s : State) (e : StreamEntry) (d : Descriptor) :
    ((portsOf e.egress).filter fun q => !(s.ports.get q).admits d).length =
      (Port.all.filter fun q => decide (e.egress.get q = true ∧ ¬((s.ports.get q).link = true ∧ (s.ports.get q).admin = .opened ∧
        ((s.ports.get q).queues.get d.cls).length < 32))).length := by
  have hiff (q : Port) := PortUnit.admits_iff (u := s.ports.get q) (d := d)
  rw [portsOf, List.filter_filter]
  congr 1
  refine List.filter_congr fun q _ => ?_
  rw [Bool.eq_iff_iff, Bool.and_eq_true, Bool.not_eq_true', decide_eq_true_eq, ← Bool.not_eq_true, hiff q, and_comm]
  rfl

/-- Settles O23: acceptance in closed form (`acceptFrame_spec`), on the state with the frame's budget taken. -/
theorem acceptedFrameIsAdmittedPortByPort : Obligations.AcceptedFrameIsAdmittedPortByPort := by
  intro s p h payload held e r hh he hr hp hl hb
  dsimp only
  obtain ⟨hports, hstore, hclock, hevents⟩ := takeBudget_rest s e
  obtain ⟨-, -, -, aevents, aports, arecords, -, astore⟩ := acceptFrame_spec (s.takeBudget e) e h payload held
  rw [classify_accepted hh he hr hp hl hb]
  generalize hd : (s.takeBudget e).frameDescriptor e payload = d at *
  rw [takeBudget_descriptor] at hd
  have hadmits (q : Port) : (s.ports.get q).admits d = true ↔
      (s.ports.get q).link = true ∧ (s.ports.get q).admin = .opened ∧ ((s.ports.get q).queues.get e.cls).length < 32 := by
    rw [PortUnit.admits_iff, ← hd]
    rfl
  have hadmitting : (s.takeBudget e).admitting e d = s.admitting e d := by rw [State.admitting, hports]; rfl
  have hmem (q : Port) : q ∈ s.admitting e d ↔ e.egress.get q = true ∧ (s.ports.get q).link = true ∧
      (s.ports.get q).admin = .opened ∧ ((s.ports.get q).queues.get e.cls).length < 32 := by
    rw [State.admitting, List.mem_filter, mem_portsOf, hadmits q]
  rw [hadmitting, hstore] at astore
  refine ⟨⟨aevents.trans hevents, ?_⟩, s.store.freshRef, fun f hf => freshRef_new s.store f hf, fun q => ⟨fun ha => ?_, fun ho => ?_, fun ho ha => ?_⟩, ?_, ?_⟩
  · have hrecord := takeBudget_record hr
    have hrefusing := refusing_length s e d
    rw [show d.cls = e.cls from hd ▸ rfl] at hrefusing
    refine ⟨StreamRecord.unqueued ((portsOf e.egress).filter fun q => !(s.ports.get q).admits d).length
      { r.budgeted e with received := r.received + 1 }, ?_, rfl, rfl, rfl, rfl, rfl, rfl, congrArg (fun n => r.noQueue + BitVec.ofNat 32 n) hrefusing⟩
    rw [arecords, streamRecord_updateRecord_same (f := StreamRecord.unqueued _) (fun _ => rfl),
      streamRecord_updateRecord_same (f := fun r => { r with received := r.received + 1 }) (fun _ => rfl), hrecord, hports]
    rfl
  · rw [aports, if_pos ha.1, hports, PortUnit.offered, if_pos ((hadmits q).2 ha.2), ← hd]
  · rw [aports, if_neg (by simp [ho]), hports]
  · rw [aports, if_pos ho, hports, PortUnit.offered, if_neg fun hx => ha ⟨ho, (hadmits q).1 hx⟩]
    rfl
  · intro hnone
    rw [astore, if_pos]
    exact List.eq_nil_iff_forall_not_mem.2 fun q hq => hnone q ((hmem q).1 hq)
  · rintro ⟨q, hq⟩
    have hne := List.ne_nil_of_mem ((hmem q).2 hq)
    rw [if_neg hne] at astore
    refine ⟨(s.admitting e d).length, List.length_pos_iff.2 hne, ?_, by rw [astore], by rw [astore]; rfl, s.admitting e d,
      (portsOf_nodup _).filter _, rfl, hmem⟩
    exact (List.length_filter_le ..).trans (List.length_filter_le ..)

end Sys2Proof.Machine
end

section
/-! Validation of a configuration (R52): each check in closed form, and the first that fails with its offender. -/

namespace Sys2Proof.Machine

open Sys2Proof

/-- A window of a port admits a stream's class and has a length or more. -/
def Configuration.Serves (c : Configuration) (e : StreamEntry) (p : Port) (n : Nat) : Prop :=
  ∃ w ∈ c.windows, w.port = p ∧ w.classes.get e.cls = true ∧ n ≤ w.length

/-- A window ends eight byte times before the end of the cycle, or earlier (check 1). -/
def Configuration.InTime (c : Configuration) (w : Window) : Prop := w.start + w.length + 8 ≤ c.params.cycleLength

/-- One port stands before another in the order of the port codes. -/
def Ahead (a b : Port) : Prop := (portCode a).toNat < (portCode b).toNat

theorem mem_portWindows {c : Configuration} {p : Port} {w : Window} : w ∈ portWindows c p ↔ w ∈ c.windows ∧ w.port = p := by
  simp [portWindows]

/-- The ports stand in the order of their codes, so what stands before one in it is ahead of it. -/
theorem mem_of_ahead {before behind : List Port} {p v : Port} (h : Port.all = before ++ p :: behind) (hv : Ahead v p) :
    v ∈ before := by
  have hsorted : Port.all.Pairwise fun a b => (portCode a).toNat < (portCode b).toNat := by decide
  have hmem := Port.mem_all v
  rw [h] at hsorted hmem
  obtain hb | hb := List.mem_append.1 hmem
  · exact hb
  · have hle : (portCode p).toNat ≤ (portCode v).toNat := by
      obtain rfl | hb := List.mem_cons.1 hb
      · exact le_rfl
      · exact (List.rel_of_pairwise_cons (List.pairwise_append.1 hsorted).2.1 hb).le
    exact absurd hv hle.not_gt

/-! ### Check 1 -/

theorem checkEnds_none {c : Configuration} : checkEnds c = none ↔ ∀ w ∈ c.windows, c.InTime w := by
  simp only [checkEnds, List.findSome?_eq_none_iff, Option.map_eq_none_iff, List.findIdx?_eq_none_iff, mem_portWindows,
    decide_eq_false_iff_not, not_lt]
  exact ⟨fun h w hw => h w.port (Port.mem_all _) w ⟨hw, rfl⟩, fun h p _ w hw => h w hw.1⟩

theorem checkEnds_some {c : Configuration} {o : Offence} (h : checkEnds c = some o) :
    ∃ p i w, o = ⟨1, none, some p, some i⟩ ∧ (portWindows c p)[i]? = some w ∧ ¬c.InTime w ∧
      (∀ j v, j < i → (portWindows c p)[j]? = some v → c.InTime v) ∧ ∀ v ∈ c.windows, Ahead v.port p → c.InTime v := by
  rw [checkEnds, List.findSome?_eq_some_iff] at h
  obtain ⟨before, p, behind, hall, hp, hbefore⟩ := h
  obtain ⟨i, hi, rfl⟩ := Option.map_eq_some_iff.1 hp
  obtain ⟨hlt, hlate, hfirst⟩ := List.findIdx?_eq_some_iff_getElem.1 hi
  refine ⟨p, i, _, rfl, List.getElem?_eq_getElem hlt, not_le.2 (of_decide_eq_true hlate), fun j v hj hv => ?_, fun v hv ha => ?_⟩
  · obtain ⟨hjl, rfl⟩ := List.getElem?_eq_some_iff.1 hv
    exact not_lt.1 fun hl => hfirst j hj (decide_eq_true hl)
  · have hnone := hbefore _ (mem_of_ahead hall ha)
    rw [Option.map_eq_none_iff, List.findIdx?_eq_none_iff] at hnone
    exact not_lt.1 (of_decide_eq_false (hnone v (mem_portWindows.2 ⟨hv, rfl⟩)))

/-! ### Checks 2 to 4 -/

theorem checkSyncWindow_none {c : Configuration} : checkSyncWindow c = none ↔
    c.params.halfWidth ≤ c.params.syncOffset ∧ c.params.syncOffset + c.params.halfWidth + 32 + 8 ≤ c.params.cycleLength := by
  simp [checkSyncWindow]

theorem checkSyncWindow_some {c : Configuration} {o : Offence} (h : checkSyncWindow c = some o) : o = ⟨2, none, none, none⟩ := by
  obtain ⟨-, rfl⟩ : _ ∧ _ = o := by simpa [checkSyncWindow] using h
  rfl

theorem checkTolerances_none {c : Configuration} : checkTolerances c = none ↔
    c.params.lockTolerance < c.params.stepThreshold ∧ c.params.stepThreshold < c.params.halfWidth := by
  simp [checkTolerances]

theorem checkTolerances_some {c : Configuration} {o : Offence} (h : checkTolerances c = some o) : o = ⟨3, none, none, none⟩ := by
  obtain ⟨-, rfl⟩ : _ ∧ _ = o := by simpa [checkTolerances] using h
  rfl

theorem checkTrunk_none {c : Configuration} : checkTrunk c = none ↔
    ∃ w ∈ c.windows, w.port = .t ∧ w.classes.get 0 = true ∧ 152 ≤ w.length := by
  simp [checkTrunk, mem_portWindows, and_assoc]

theorem checkTrunk_some {c : Configuration} {o : Offence} (h : checkTrunk c = some o) : o = ⟨4, none, none, none⟩ := by
  obtain ⟨-, rfl⟩ : _ ∧ _ = o := by simpa [checkTrunk] using h
  rfl

/-! ### Checks 5 and 6 -/

section
variable {c : Configuration} {check : Nat} {serves : StreamEntry → Window → Bool} {need : StreamEntry → Nat}

theorem any_serves (hserves : ∀ e w, serves e w = true ↔ w.classes.get e.cls = true ∧ need e ≤ w.length) (e : StreamEntry) (p : Port) :
    (portWindows c p).any (serves e) = true ↔ c.Serves e p (need e) := by
  simp only [List.any_eq_true, mem_portWindows, hserves, Configuration.Serves, and_assoc]

theorem unserved_none (hserves : ∀ e w, serves e w = true ↔ w.classes.get e.cls = true ∧ need e ≤ w.length) :
    unserved c check serves = none ↔ ∀ e ∈ c.streams, ∀ p, e.egress.get p = true → c.Serves e p (need e) := by
  simp only [unserved, List.findSome?_eq_none_iff, Option.map_eq_none_iff, List.find?_eq_none, Bool.and_eq_true, Bool.not_eq_true',
    ← Bool.not_eq_true, any_serves hserves, not_and, not_not]
  exact ⟨fun h e he p => h e he p (Port.mem_all p), fun h e he p _ => h e he p⟩

theorem unserved_some (hserves : ∀ e w, serves e w = true ↔ w.classes.get e.cls = true ∧ need e ≤ w.length) {o : Offence}
    (h : unserved c check serves = some o) :
    ∃ before e behind p, o = ⟨check, some e.stream, some p, none⟩ ∧ c.streams = before ++ e :: behind ∧
      e.egress.get p = true ∧ ¬c.Serves e p (need e) ∧
      (∀ v : Port, Ahead v p → e.egress.get v = true → c.Serves e v (need e)) ∧
      ∀ x ∈ before, ∀ v, x.egress.get v = true → c.Serves x v (need x) := by
  have hserved (e : StreamEntry) (v : Port) (hv : ¬(e.egress.get v && !(portWindows c v).any (serves e)) = true)
      (he : e.egress.get v = true) : c.Serves e v (need e) := by
    rw [← any_serves hserves]
    simpa [he] using hv
  rw [unserved, List.findSome?_eq_some_iff] at h
  obtain ⟨before, e, behind, hstreams, he, hbefore⟩ := h
  obtain ⟨p, hp, rfl⟩ := Option.map_eq_some_iff.1 he
  obtain ⟨hlacks, earlier, later, hall, hearlier⟩ := List.find?_eq_some_iff_append.1 hp
  obtain ⟨hegress, hnone⟩ := Bool.and_eq_true_iff.1 hlacks
  refine ⟨before, e, behind, p, rfl, hstreams, hegress, fun hs => ?_, fun v ha => hserved e v ?_, fun x hx v => hserved x v ?_⟩
  · rw [(any_serves hserves e p).2 hs] at hnone
    cases hnone
  · rw [Bool.not_eq_true, ← Bool.not_eq_true']
    exact (hearlier v (mem_of_ahead hall ha))
  · exact List.find?_eq_none.1 (Option.map_eq_none_iff.1 (hbefore x hx)) v (Port.mem_all v)

end

theorem classes_serve (e : StreamEntry) (w : Window) : w.classes.get e.cls = true ↔ w.classes.get e.cls = true ∧ 0 ≤ w.length := by
  simp

theorem lengths_serve (e : StreamEntry) (w : Window) : (w.classes.get e.cls && decide (occupancy e.maxPayload ≤ w.length)) = true ↔
    w.classes.get e.cls = true ∧ e.maxPayload + 24 ≤ w.length := by
  rw [Bool.and_eq_true, decide_eq_true_eq]
  rfl

/-- Settles O48: each check passes exactly its condition, and the first that fails names its offender. -/
theorem validationPassesExactlyTheSixChecks : Obligations.ValidationPassesExactlyTheSixChecks := by
  intro c
  have hends := checkEnds_none (c := c)
  have hsync := checkSyncWindow_none (c := c)
  have htolerances := checkTolerances_none (c := c)
  have htrunk := checkTrunk_none (c := c)
  have hclasses : checkClasses c = none ↔ _ := unserved_none (check := 5) classes_serve
  have hlengths : checkLengths c = none ↔ _ := unserved_none (check := 6) lengths_serve
  refine ⟨?_, fun o ho => ?_⟩
  · simp only [validate, Option.or_eq_none_iff]
    exact and_congr hends (and_congr hsync (and_congr htolerances (and_congr htrunk (and_congr hclasses hlengths))))
  · have hfails {x : Option Offence} {P : Prop} (hx : x = some o) (hP : x = none ↔ P) : ¬P := fun h => by
      rw [hP.2 h] at hx
      cases hx
    simp only [validate, Option.or_eq_some_iff] at ho
    obtain h1 | ⟨h1, h2 | ⟨h2, h3 | ⟨h3, h4 | ⟨h4, h5 | ⟨h5, h6⟩⟩⟩⟩⟩ := ho
    · obtain ⟨p, i, w, rfl, hw⟩ := checkEnds_some h1
      exact ⟨.inl ⟨rfl, hfails h1 hends⟩, fun _ => ⟨p, i, w, rfl, hw⟩, fun h => by simp at h, fun h => by simp at h⟩
    · obtain rfl := checkSyncWindow_some h2
      exact ⟨.inr (.inl ⟨rfl, hends.1 h1, hfails h2 hsync⟩), fun h => by simp at h, fun _ => rfl,
        fun h => by simp at h⟩
    · obtain rfl := checkTolerances_some h3
      exact ⟨.inr (.inr (.inl ⟨rfl, hends.1 h1, hsync.1 h2, hfails h3 htolerances⟩)), fun h => by simp at h, fun _ => rfl,
        fun h => by simp at h⟩
    · obtain rfl := checkTrunk_some h4
      exact ⟨.inr (.inr (.inr (.inl ⟨rfl, hends.1 h1, hsync.1 h2, htolerances.1 h3, hfails h4 htrunk⟩))),
        fun h => by simp at h, fun _ => rfl, fun h => by simp at h⟩
    · obtain ⟨before, e, behind, p, rfl, hfirst⟩ := unserved_some classes_serve h5
      exact ⟨.inr (.inr (.inr (.inr (.inl ⟨rfl, hends.1 h1, hsync.1 h2, htolerances.1 h3, htrunk.1 h4, hfails h5 hclasses⟩)))),
        fun h => by simp at h, fun h => by simp at h, fun _ => ⟨before, e, behind, p, rfl, hfirst⟩⟩
    · obtain ⟨before, e, behind, p, rfl, hfirst⟩ := unserved_some lengths_serve h6
      exact ⟨.inr (.inr (.inr (.inr (.inr
          ⟨rfl, hends.1 h1, hsync.1 h2, htolerances.1 h3, htrunk.1 h4, hclasses.1 h5, hfails h6 hlengths⟩)))),
        fun h => by simp at h, fun h => by simp at h, fun _ => ⟨before, e, behind, p, rfl, hfirst⟩⟩

end Sys2Proof.Machine
end

section
/-! How a request other than OPEN is judged (R134, steps 1 to 7). -/

namespace Sys2Proof.Machine

open Sys2Proof

theorem validSource_of {h : RequestHead} (h0 : h.source ≠ 0) (h255 : h.source ≠ 255) : validSource h = true := by
  simpa [validSource] using And.intro h0 h255

theorem badLength_iff {h : RequestHead} : badLength h = true ↔ h.length.toNat < 2 ∨ 128 < h.length.toNat := by
  simp [badLength]

section
variable {s : State} {h : RequestHead} {code : Byte} {edit lengthOk : Bool} {act : State → State × Reply} {x : Session}

theorem serveRequest_badLength (hv : validSource h = true) (hb : badLength h = true) :
    s.serveRequest h code edit lengthOk act = (s.renewLease h.source).answer h (echoCode h code) (reply .badRequest []) false := by
  simp only [State.serveRequest, hv, hb, if_true]

theorem serveRequest_noSession (hv : validSource h = true) (hb : badLength h = false) (hs : sessionOf s.mgmt.slots h.source = none) :
    s.serveRequest h code edit lengthOk act = (s.renewLease h.source).answer h code (reply .noSession []) false := by
  simp [State.serveRequest, hv, hb, sessionOf_renewLease, hs]

theorem serveRequest_repeated (hv : validSource h = true) (hb : badLength h = false)
    (hs : sessionOf s.mgmt.slots h.source = some x) (ht : h.tag = x.lastSequence) :
    s.serveRequest h code edit lengthOk act = (s.renewLease h.source).respond h x.replay false := by
  simp [State.serveRequest, hv, hb, sessionOf_renewLease, hs, ht]

theorem serveRequest_outOfSequence (hv : validSource h = true) (hb : badLength h = false)
    (hs : sessionOf s.mgmt.slots h.source = some x) (ht : h.tag ≠ x.lastSequence) (hn : h.tag ≠ x.lastSequence + 1) :
    s.serveRequest h code edit lengthOk act =
      (s.renewLease h.source).answer h code (reply .sequence (be16 (x.lastSequence + 1))) false := by
  simp only [State.serveRequest, hv, hb, sessionOf_renewLease, hs, if_true, Option.map_some, if_neg ht, if_pos hn]
  rfl

theorem serveRequest_badBody (hv : validSource h = true) (hb : badLength h = false)
    (hs : sessionOf s.mgmt.slots h.source = some x) (hn : h.tag = x.lastSequence + 1) :
    s.serveRequest h code edit false act = (s.renewLease h.source).answer h code (reply .badRequest []) true := by
  simp [State.serveRequest, hv, hb, sessionOf_renewLease, hs, hn]

theorem serveRequest_observer (hv : validSource h = true) (hb : badLength h = false)
    (hs : sessionOf s.mgmt.slots h.source = some x) (hn : h.tag = x.lastSequence + 1)
    (hm : x.mode = .observe) :
    s.serveRequest h code true true act = (s.renewLease h.source).answer h code (reply .mode []) true := by
  simp [State.serveRequest, hv, hb, sessionOf_renewLease, hs, hn, hm]

end

/-- Settles O34: a request row, and a request of an unknown code, are served by the same judge. -/
theorem requestsAreJudgedInOrder : Obligations.RequestsAreJudgedInOrder := by
  refine ⟨fun s r code hr h0 h255 => ?_, fun s c q hq hr h0 h255 => ?_⟩
  · have hv : validSource r = true := validSource_of h0 h255
    have hexec : exec (.unknownRequestCode r code) s = .next (settle (s.serveRequest r code false false fun t => (t, reply .badRequest []))) := by
      simp only [Machine.exec, execUnknownRequestCode]
      rw [taken_running hr]
      rfl
    dsimp only
    rw [hexec]
    split
    · next hb => rw [serveRequest_badLength hv (badLength_iff.2 hb)]; rfl
    · next hb =>
      have hb : badLength r = false := Bool.not_eq_true _ ▸ mt badLength_iff.1 hb
      cases hs : sessionOf s.mgmt.slots r.source with
      | none => dsimp only; rw [serveRequest_noSession hv hb hs]
      | some x =>
        dsimp only
        split
        · next ht => rw [serveRequest_repeated hv hb hs ht]
        · next ht =>
          split
          · next hn => rw [serveRequest_outOfSequence hv hb hs ht hn]
          · next hn => rw [serveRequest_badBody hv hb hs (not_not.1 hn)]
  · have hv : validSource q.head = true := validSource_of h0 h255
    obtain ⟨act, -, hact⟩ := exec_requestRow hq
    have hexec : exec c s = .next (settle (s.serveRequest q.head q.code q.edit (bodyLength q.head q.bodyLength) act)) := by
      rw [hact, taken_running hr]
    dsimp only
    rw [hexec]
    split
    · next hb => rw [serveRequest_badLength hv (badLength_iff.2 hb)]; rfl
    · next hb =>
      have hb : badLength q.head = false := Bool.not_eq_true _ ▸ mt badLength_iff.1 hb
      cases hs : sessionOf s.mgmt.slots q.head.source with
      | none => dsimp only; rw [serveRequest_noSession hv hb hs]
      | some x =>
        dsimp only
        split
        · next ht => rw [serveRequest_repeated hv hb hs ht]
        · next ht =>
          split
          · next hn => rw [serveRequest_outOfSequence hv hb hs ht hn]
          · next hn =>
            split
            · next hl => rw [bodyLength, decide_eq_false hl, serveRequest_badBody hv hb hs (not_not.1 hn)]
            · next hl =>
              intro hedit hmode
              rw [bodyLength, decide_eq_true (not_not.1 hl), hedit, serveRequest_observer hv hb hs (not_not.1 hn) hmode]

end Sys2Proof.Machine
end

section
/-! Answers (R79, R134, R140, R141), the end of a session (R60, R138, R154) and LEASE_EXPIRY (R136). -/

namespace Sys2Proof.Machine

open Sys2Proof

/-- What a response does to its slot, or to TX_OWN_DROP where no slot is free (R79); a response without the restart mark is no restart. -/
theorem answer_own (s : State) (h : RequestHead) (c : Byte) {r : Reply} (b : Bool) (hm : r.marked = false) :
    (s.slotsTaken < 8 →
      (s.answer h c r b).own = s.own ++ [⟨.response, h.source, s.straps.station, h.tag, responsePayload c r, false⟩] ∧
      (s.answer h c r b).ports = s.ports) ∧
    (8 ≤ s.slotsTaken → (s.answer h c r b).own = s.own ∧
      (s.answer h c r b).ports =
        s.ports.set .t { s.ports.t with count := { s.ports.t.count with txOwnDrop := s.ports.t.count.txOwnDrop + 1 } }) := by
  rw [answer_unmarked s h c r b hm]
  generalize hu : (if b = true then s.record h (responsePayload c r) else s) = u
  have hrest : u.slotsTaken = s.slotsTaken ∧ u.own = s.own ∧ u.ports = s.ports ∧ u.straps = s.straps := by
    subst hu
    split <;> exact ⟨rfl, rfl, rfl, rfl⟩
  obtain ⟨hslots, hown, hports, hstraps⟩ := hrest
  rw [← hslots, ← hown, ← hports, ← hstraps]
  refine ⟨fun hfree => ?_, fun hfull => ?_⟩
  · rw [State.respond, if_pos (slotFree_iff.2 hfree)]
    exact ⟨(appendOwn_rest ..).1, (appendOwn_rest ..).2.1⟩
  · rw [State.respond, if_neg fun hfree => absurd (slotFree_iff.1 hfree) (Nat.not_lt.2 hfull)]
    exact ⟨rfl, rfl⟩

/-- What a response leaves alone, whether or not a slot is free for it. -/
theorem respond_rest (s : State) (h : RequestHead) (p : List Byte) (m : Bool) : (s.respond h p m).store = s.store ∧
    (s.respond h p m).events = s.events ∧ (s.respond h p m).classifier = s.classifier := by
  unfold State.respond
  split
  · obtain ⟨-, -, hstore, hevents, -, hclassifier⟩ := appendOwn_rest s (s.responseFrame h p m)
    exact ⟨hstore, hevents, hclassifier⟩
  · exact ⟨rfl, rfl, rfl⟩

theorem answer_rest (s : State) (h : RequestHead) (c : Byte) {r : Reply} (b : Bool) (hm : r.marked = false) :
    (s.answer h c r b).store = s.store ∧ (s.answer h c r b).events = s.events ∧ (s.answer h c r b).classifier = s.classifier := by
  rw [answer_unmarked s h c r b hm]
  obtain ⟨hstore, hevents, hclassifier⟩ := respond_rest (if b = true then s.record h (responsePayload c r) else s) h (responsePayload c r) false
  rw [hstore, hevents, hclassifier]
  split <;> exact ⟨rfl, rfl, rfl⟩

/-- Settles O35: a renewal is a change of the station's record; an answer is its record, where it has one, and its response. -/
theorem renewalAndResponse : Obligations.RenewalAndResponse := by
  refine ⟨fun s n => ⟨fun i => onSession_get .., rfl, rfl⟩, fun s r code status body recorded => ?_⟩
  obtain ⟨hfree, hfull⟩ := answer_own s r code recorded (r := reply status body) rfl
  obtain ⟨hkept, hcfg, hmgmt⟩ := answer_unmarked_kept s r code (reply status body) recorded rfl
  obtain ⟨hstore, hevents, hclassifier⟩ := answer_rest s r code recorded (r := reply status body) rfl
  refine ⟨hfree, fun h => ⟨(hfull h).1, fun q hq => ?_, ?_⟩, fun i => ?_, hcfg, hkept.clock, hkept.sync, hstore, hevents, hclassifier, ?_⟩
  · rw [(hfull h).2, PerPort.get_set, if_neg hq]
  · have h := congrArg (PerPort.get · .t) (hfull h).2
    rwa [PerPort.get_set, if_pos rfl] at h
  · rw [hmgmt]
    cases recorded with
    | true =>
      simp only [if_true, true_and]
      exact onSession_get ..
    | false => simp
  · rw [hmgmt]
    split <;> rfl

/-! ### The end of a session -/

theorem dropReport_eq (e : EventUnit) : e.dropReport =
    if e.report = none then e else { e with queue := e.queue.map fun x => { x with sent := false }, report := none, timer := none } := by
  unfold EventUnit.dropReport EventUnit.unsend
  cases e.report <;> rfl

/-- The end of the sink's session clears the sink (R154). -/
theorem endSession_events {s : State} {i : Fin 4} {x : Session} (hx : s.mgmt.slots.get i = some x) :
    (s.endSession i).events = if x.sink = true then { s.events.dropReport with sink := none } else s.events := by
  unfold State.endSession
  rw [hx]
  dsimp only
  split <;> split <;> rfl

/-- Settles O38: from the end of a session (`endSession_spec`) and the row's own case on the lease. -/
theorem sessionEndAndLeaseExpiry : Obligations.SessionEndAndLeaseExpiry := by
  refine ⟨fun s i x hx => ?_, fun s i x hr hx => ⟨fun hl => ?_, fun hl => ?_⟩⟩
  · obtain ⟨-, hmgmt, hcfg, hports, hown, hstore, -⟩ := endSession_spec s i
    rw [hx] at hcfg
    dsimp only
    rw [hmgmt]
    refine ⟨by rw [Quad.get_set, if_pos rfl], fun j hj => by rw [Quad.get_set, if_neg hj], hcfg, ?_, hports, rfl, hown, hstore⟩
    rw [endSession_events hx, dropReport_eq]
    split
    · split <;> rfl
    · rfl
  · simp only [Machine.exec, execLeaseExpiry]
    rw [taken_running hr, hx]
    dsimp only
    rw [if_neg hl]
  · obtain ⟨hkept, hmgmt, -, hports, hown, -⟩ := endSession_spec s i
    refine ⟨(s.endSession i).raise .sessionExpired none none (x.station.setWidth 32), ?_, ?_, fun j hj => ?_, ?_, rfl, hports, hown,
      hkept.clock⟩
    · simp only [Machine.exec, execLeaseExpiry]
      rw [taken_running hr, hx]
      dsimp only
      rw [if_pos hl]
    · rw [(raise_kept ..).mgmt, hmgmt, Quad.get_set, if_pos rfl]
    · rw [(raise_kept ..).mgmt, hmgmt, Quad.get_set, if_neg hj]
    · rw [State.raise, hkept.clock]
      rfl

/-! ### CLOSE and RENEW -/

theorem onSession_self {q : Quad (Option Session)} {n : Byte} {f : Session → Session} {i : Fin 4} {x : Session} (hx : q.get i = some x)
    (hn : x.station = n) : (onSession q n f).get i = some (f x) := by
  rw [onSession_get, hx, Option.map_some, if_pos hn]

/-- The slot of a station that has a session holds it, and no other slot one of that station. -/
theorem sessionOf_slot {s : State} {n : Byte} {x : Session} (h : sessionOf s.mgmt.slots n = some x) (hs : s.SessionInv) :
    ∃ i, sessionSlot s.mgmt.slots n = some i ∧ s.mgmt.slots.get i = some x ∧ x.station = n ∧
      ∀ j y, s.mgmt.slots.get j = some y → y.station = n → j = i := by
  obtain ⟨i, hi, hx, hn⟩ := sessionOf_some h
  exact ⟨i, hi, hx, hn, fun j y hy hyn => (sessionInv_iff.1 hs).stations j i y x hy hx (hyn.trans hn.symm)⟩

/-- Settles O39: a request in turn is carried out on the renewed state (`serveRequest_inTurn`). -/
theorem closeRenewAndUnknownCodes : Obligations.CloseRenewAndUnknownCodes := by
  refine fun s r x => ⟨fun h hs => ?_, fun h => ?_, fun code n h hn => ?_⟩
  · obtain ⟨i, hslot, hx, hn, hothers⟩ := sessionOf_slot h.session hs
    have hexec : exec (.closeSession r) s =
        .next (settle (((s.renewLease r.source).endSession i).answer r 0x02 (reply .ok []) true)) := by
      simp only [Machine.exec, execClose]
      rw [taken_running h.running, State.closeRequest, serveRequest_inTurn h (by decide) 0x02 false nofun, sessionSlot_renewLease, hslot]
    refine ⟨i, _, hx, hexec, ?_, fun j hj => ?_, hexec⟩
    all_goals
      rw [(settle_kept _).mgmt, (answer_unmarked_kept _ r 0x02 (reply .ok []) true rfl).2.2, if_pos rfl, State.record, State.setSlots_mgmt,
        onSession_get, (endSession_spec ..).2.1, Quad.get_set]
    · rw [if_pos rfl]
      rfl
    · rw [if_neg hj, State.renewLease, State.setSlots_mgmt, onSession_get]
      cases hy : s.mgmt.slots.get j with
      | none => rfl
      | some y => simp [show y.station ≠ r.source from fun hyn => hj (hothers j y hy hyn)]
  · simp only [Machine.exec, execRenew]
    refine taken_serveRequest_inTurn h (by decide) nofun ?_
    rw [sessionOf_renewLease, h.session]
    rfl
  · simp only [Machine.exec, execUnknownRequestCode]
    rw [taken_running h.running, State.unknownRequest, serveRequest_badBody h.source (badLength_of_inTurn h hn) h.session h.tag]
    rfl

end Sys2Proof.Machine
end

section
/-! OPEN (R137): its refusals in order, and what one that no refusal stops leaves. -/

namespace Sys2Proof.Machine

open Sys2Proof

/-! ### The judgement -/

/-- An OPEN is claimed for a station that holds EDIT where it asks for EDIT and is another's (R137). -/
def claimant (q : Quad (Option Session)) (mode : Byte) (station : Byte) : Option Byte :=
  (editStation q).filter fun x => mode = 1 && x ≠ station

theorem editStation_some {q : Quad (Option Session)} {n : Byte} (h : editStation q = some n) :
    ∃ i x, q.get i = some x ∧ x.mode = .edit ∧ x.station = n := by
  obtain ⟨x, hx, hn⟩ := Option.map_eq_some_iff.1 h
  obtain ⟨z, hz, rfl⟩ := List.mem_filterMap.1 (List.mem_of_find?_eq_some hx)
  obtain ⟨i, hi⟩ := (Quad.mem_toList ..).1 hz
  exact ⟨i, x, hi, by simpa using List.find?_some hx, hn⟩

/-- Only the EDIT session of another station claims. -/
theorem claimant_none {q : Quad (Option Session)} {mode n : Byte}
    (h : mode = 1 → ∀ i x, q.get i = some x → x.mode = .edit → x.station = n) : claimant q mode n = none := by
  refine Option.filter_eq_none_iff.2 fun m hm => ?_
  obtain ⟨i, x, hx, hedit, rfl⟩ := editStation_some hm
  simpa using fun hmode => h hmode i x hx hedit

/-- The one EDIT session is the claimant, for another station that asks for EDIT. -/
theorem claimant_some {q : Quad (Option Session)} (hq : SlotsOk q) {n : Byte} {i : Fin 4} {x : Session} (hx : q.get i = some x)
    (hedit : x.mode = .edit) (hn : x.station ≠ n) : claimant q 1 n = some x.station := by
  obtain ⟨j, y, hy, hye, hst⟩ := editStation_of_edit hx hedit
  obtain rfl := hq.edits i j x y hx hy hedit hye
  obtain rfl := Option.some.inj (hx.symm.trans hy)
  rw [claimant, hst]
  simp [hn]

theorem editStation_renewLease (s : State) (n : Byte) :
    editStation (s.renewLease n).mgmt.slots = editStation s.mgmt.slots := by
  have hone (f : Session → Session) (hs : ∀ x, (f x).station = x.station) (hm : ∀ x, (f x).mode = x.mode) (l : List (Option Session)) :
      (((l.map (Option.map f)).filterMap id).find? fun x => x.mode = .edit).map (·.station) =
        ((l.filterMap id).find? fun x => x.mode = .edit).map (·.station) := by
    induction l with
    | nil => rfl
    | cons a l ih =>
      cases a with
      | none => exact ih
      | some x =>
        simp only [List.map_cons, Option.map_some, List.filterMap_cons, id, List.find?_cons, hm x]
        split
        · exact congrArg some (hs x)
        · exact ih
  exact hone (fun y => if y.station = n then { y with remaining := y.lease } else y) (fun x => by split <;> rfl) (fun x => by split <;> rfl)
    s.mgmt.slots.toList

section
variable {s : State} {h : RequestHead} {mode : Byte} {lease : Half}

/-- An OPEN of a good length, as it is judged before the sessions are looked at. -/
theorem openRequest_judged (hv : validSource h = true) (hl : h.length.toNat = 5) (hm : ¬1 < mode.toNat)
    (hlease : ¬(lease.toNat < 100 ∨ 60000 < lease.toNat)) : s.openRequest h mode lease =
      match claimant s.mgmt.slots mode h.source with
      | some other => (s.renewLease h.source).answer h 0x01 (reply .claimed [other]) false
      | none =>
        if sessionSlot s.mgmt.slots h.source = none ∧ freeSlot s.mgmt.slots = none then
          (s.renewLease h.source).answer h 0x01 (reply .full []) false
        else (s.renewLease h.source).acceptOpen h (if mode = 1 then .edit else .observe) lease.toNat := by
  have hb : badLength h = false := by simp [badLength, hl]
  have hbody : bodyLength h 3 = true := by simp [bodyLength, hl]
  simp only [State.openRequest, hv, hb, hbody, if_neg hm, if_neg hlease, if_true, editStation_renewLease, sessionSlot_renewLease,
    freeSlot_renewLease, claimant]
  rfl

theorem openRequest_claimed (hv : validSource h = true) (hl : h.length.toNat = 5) (hm : ¬1 < mode.toNat)
    (hlease : ¬(lease.toNat < 100 ∨ 60000 < lease.toNat)) {n : Byte} (hn : claimant s.mgmt.slots mode h.source = some n) :
    s.openRequest h mode lease = (s.renewLease h.source).answer h 0x01 (reply .claimed [n]) false := by
  rw [openRequest_judged hv hl hm hlease, hn]

theorem openRequest_full (hv : validSource h = true) (hl : h.length.toNat = 5) (hm : ¬1 < mode.toNat)
    (hlease : ¬(lease.toNat < 100 ∨ 60000 < lease.toNat)) (hn : claimant s.mgmt.slots mode h.source = none)
    (hs : sessionSlot s.mgmt.slots h.source = none) (hf : freeSlot s.mgmt.slots = none) :
    s.openRequest h mode lease = (s.renewLease h.source).answer h 0x01 (reply .full []) false := by
  rw [openRequest_judged hv hl hm hlease, hn]
  dsimp only
  rw [if_pos ⟨hs, hf⟩]

theorem openRequest_accepted (hv : validSource h = true) (hl : h.length.toNat = 5) (hm : ¬1 < mode.toNat)
    (hlease : ¬(lease.toNat < 100 ∨ 60000 < lease.toNat)) (hn : claimant s.mgmt.slots mode h.source = none)
    (hs : ¬(sessionSlot s.mgmt.slots h.source = none ∧ freeSlot s.mgmt.slots = none)) :
    s.openRequest h mode lease = (s.renewLease h.source).acceptOpen h (if mode = 1 then .edit else .observe) lease.toNat := by
  rw [openRequest_judged hv hl hm hlease, hn]
  dsimp only
  rw [if_neg hs]

end

theorem sessionSlot_eq_none {q : Quad (Option Session)} {n : Byte} :
    sessionSlot q n = none ↔ ∀ i x, q.get i = some x → x.station ≠ n := by
  refine ⟨sessionSlot_none, fun h => List.find?_eq_none.2 fun i _ => ?_⟩
  cases hx : q.get i with
  | none => simp
  | some x => simpa using h i x hx

theorem freeSlot_eq_none {q : Quad (Option Session)} : freeSlot q = none ↔ ∀ i, q.get i ≠ none := by
  rw [freeSlot, List.find?_eq_none]
  refine ⟨fun h i hi => h i (by fin_cases i <;> simp) (by rw [hi]; rfl), fun h i _ hi => h i (Option.isNone_iff_eq_none.1 hi)⟩

/-- Settles O37: the judge's refusals, in its order. -/
theorem openIsRefusedInOrder : Obligations.OpenIsRefusedInOrder := by
  intro s r mode lease hr hs h0 h255
  have hv := validSource_of h0 h255
  have hexec : exec (.openSession r mode lease) s = .next (settle (s.openRequest r mode lease)) := by
    simp only [Machine.exec, execOpen]
    rw [taken_running hr]
  dsimp only
  rw [hexec]
  by_cases hb : r.length.toNat < 2 ∨ 128 < r.length.toNat
  · rw [if_pos hb, State.openRequest, if_pos hv, if_pos (badLength_iff.2 hb)]
    rfl
  rw [if_neg hb]
  by_cases hl : r.length.toNat = 5
  case neg =>
    have hbody : bodyLength r 3 = false := by simp [bodyLength, hl]
    rw [if_pos hl, State.openRequest, if_pos hv, if_neg (mt badLength_iff.1 hb), if_pos (by rw [hbody]; rfl)]
  have hbad : badLength r = false := by simp [badLength, hl]
  have hbody : bodyLength r 3 = true := by simp [bodyLength, hl]
  rw [if_neg (not_not.2 hl)]
  by_cases hm : 1 < mode.toNat
  · rw [if_pos hm]
    simp [State.openRequest, hv, hbad, hbody, hm]
  rw [if_neg hm]
  by_cases hlease : lease.toNat < 100 ∨ 60000 < lease.toNat
  · rw [if_pos hlease]
    simp [State.openRequest, hv, hbad, hbody, hm, hlease]
  rw [if_neg hlease]
  refine ⟨fun i x hmode hx hedit hn => ?_, fun hnone hothers => ?_⟩
  · rw [openRequest_claimed hv hl hm hlease (n := x.station)]
    rw [hmode]
    exact claimant_some (sessionInv_iff.1 hs) hx hedit hn
  · rw [openRequest_full hv hl hm hlease (claimant_none fun hmode i x hx hedit => absurd hedit (hnone hmode i x hx))]
    · refine sessionSlot_eq_none.2 fun i x hx => ?_
      obtain ⟨y, hy, hn⟩ := hothers i
      rw [hx] at hy
      cases hy
      exact hn
    · refine freeSlot_eq_none.2 fun i hi => ?_
      obtain ⟨y, hy, -⟩ := hothers i
      rw [hi] at hy
      cases hy

end Sys2Proof.Machine
end

section
/-! An OPEN that no refusal stops (R137, R154): the sessions, the sink and the reports it leaves. -/

namespace Sys2Proof.Machine

open Sys2Proof

section
variable {s : State} {n : Byte}

/-- A station's session is the sink's. -/
def State.HoldsSink (s : State) (n : Byte) : Prop := ∃ j y, s.mgmt.slots.get j = some y ∧ y.station = n ∧ y.sink = true

/-- A renewal touches the station's own record alone. -/
theorem renewLease_get (s : State) (n : Byte) (j : Fin 4) : (s.renewLease n).mgmt.slots.get j =
    (s.mgmt.slots.get j).map fun y => if y.station = n then { y with remaining := y.lease } else y := onSession_get ..

theorem renewLease_get_other {j : Fin 4} {y : Session} (hn : y.station ≠ n) :
    (s.renewLease n).mgmt.slots.get j = some y ↔ s.mgmt.slots.get j = some y := by
  rw [renewLease_get]
  cases s.mgmt.slots.get j with
  | none => simp
  | some z =>
    rw [Option.map_some, Option.some.injEq, Option.some.injEq]
    split
    · next hz => exact ⟨fun h => absurd (h ▸ hz) hn, fun h => absurd (h ▸ hz) hn⟩
    · exact .rfl

theorem renewLease_holdsSink : (s.renewLease n).HoldsSink n ↔ s.HoldsSink n := by
  refine exists_congr fun j => ?_
  rw [renewLease_get]
  cases s.mgmt.slots.get j with
  | none => simp
  | some z =>
    by_cases hz : z.station = n <;> simp [hz]

theorem renewLease_sessionInv (hs : s.SessionInv) : (s.renewLease n).SessionInv := sessionInv_closed.renewLease n hs

/-! ### The earlier session ends -/

theorem sessionEnded_rest (s : State) (n : Byte) : (s.sessionEnded n).ports = s.ports ∧ (s.sessionEnded n).own = s.own ∧
    (s.sessionEnded n).store = s.store ∧ (s.sessionEnded n).classifier = s.classifier ∧
    (s.sessionEnded n).mgmt.restartPending = s.mgmt.restartPending ∧ (s.sessionEnded n).cfg.active = s.cfg.active ∧
    (s.sessionEnded n).cfg.armed = s.cfg.armed ∧ (s.sessionEnded n).cfg.generation = s.cfg.generation := by
  unfold State.sessionEnded
  split
  · next i _ =>
    obtain ⟨-, hmgmt, -, hports, hown, hstore, hclassifier⟩ := endSession_spec s i
    obtain ⟨hactive, hgeneration, harmed⟩ := endSession_active s i
    exact ⟨hports, hown, hstore, hclassifier, by rw [hmgmt], hactive, harmed, hgeneration⟩
  · exact ⟨rfl, rfl, rfl, rfl, rfl, rfl, rfl, rfl⟩

/-- The end of the sink's session clears the sink; the end of another leaves the event unit. -/
theorem sessionEnded_events (hs : s.SessionInv) (n : Byte) :
    (s.HoldsSink n → (s.sessionEnded n).events = { s.events.dropReport with sink := none }) ∧
    (¬s.HoldsSink n → (s.sessionEnded n).events = s.events) := by
  unfold State.sessionEnded
  split
  · next i hi =>
    obtain ⟨x, hx, hn⟩ := sessionSlot_some hi
    rw [endSession_events hx]
    refine ⟨fun ⟨j, y, hy, hyn, hsink⟩ => ?_, fun hno => if_neg fun hsink => hno ⟨i, x, hx, hn, hsink⟩⟩
    obtain rfl := (sessionInv_iff.1 hs).stations j i y x hy hx (hyn.trans hn.symm)
    rw [hx] at hy
    cases hy
    exact if_pos hsink
  · next hi => exact ⟨fun ⟨j, y, hy, hyn, _⟩ => absurd hyn (sessionSlot_none hi j y hy), fun _ => rfl⟩

/-- A station that has a session, or for which a slot is free, finds a free slot once its session has ended. -/
theorem freeSlot_sessionEnded (hs : s.SessionInv)
    (h : ¬(sessionSlot s.mgmt.slots n = none ∧ freeSlot s.mgmt.slots = none)) : ∃ k, freeSlot (s.sessionEnded n).mgmt.slots = some k := by
  cases hf : freeSlot (s.sessionEnded n).mgmt.slots with
  | some k => exact ⟨k, rfl⟩
  | none =>
    have hfull (i : Fin 4) : ∃ y, s.mgmt.slots.get i = some y ∧ y.station ≠ n := by
      obtain ⟨y, hy⟩ := Option.ne_none_iff_exists'.1 (freeSlot_eq_none.1 hf i)
      exact ⟨y, (sessionEnded_get hs n i y).1 hy⟩
    refine absurd ⟨sessionSlot_eq_none.2 fun i x hx => ?_, freeSlot_eq_none.2 fun i hi => ?_⟩ h
    · obtain ⟨y, hy, hyn⟩ := hfull i
      rw [hx] at hy
      cases hy
      exact hyn
    · obtain ⟨y, hy, -⟩ := hfull i
      rw [hi] at hy
      cases hy

end

/-! ### The new session starts -/

theorem setSink_events (s : State) (n : Byte) : (s.setSink n).events =
    if s.events.sink = some n then s.events else { s.events.dropReport with sink := some n } := by
  unfold State.setSink
  dsimp only
  split <;> rfl

section
variable (s : State) (h : RequestHead) (m : SessionMode) (l : Nat) (k : Fin 4)

theorem sessionOpened_rest : (s.sessionOpened h m l k).ports = s.ports ∧ (s.sessionOpened h m l k).own = s.own ∧
    (s.sessionOpened h m l k).store = s.store ∧ (s.sessionOpened h m l k).classifier = s.classifier := by
  unfold State.sessionOpened
  dsimp only
  split
  · unfold State.setSink
    dsimp only
    split <;> exact ⟨rfl, rfl, rfl, rfl⟩
  · exact ⟨rfl, rfl, rfl, rfl⟩

theorem sessionOpened_events : (s.sessionOpened h m l k).events =
    if bitOf h.flags 0 = true ∧ s.events.sink ≠ some h.source then { s.events.dropReport with sink := some h.source } else s.events := by
  unfold State.sessionOpened
  dsimp only
  by_cases hreport : bitOf h.flags 0 = true
  · rw [if_pos hreport, setSink_events, State.setSlots_events]
    by_cases hsink : s.events.sink = some h.source
    · rw [if_pos hsink, if_neg fun hx => hx.2 hsink]
    · rw [if_neg hsink, if_pos ⟨hreport, hsink⟩]
  · rw [if_neg hreport, if_neg fun hx => hreport hx.1]
    rfl

/-- The slots once a new session has one: with REPORT it holds the only sink flag. -/
theorem sessionOpened_get (j : Fin 4) (hother : ∀ j y, s.mgmt.slots.get j = some y → y.station ≠ h.source) :
    (s.sessionOpened h m l k).mgmt.slots.get j =
      if j = k then some { openedSession h m l k with sink := bitOf h.flags 0 }
      else (s.mgmt.slots.get j).map fun y => { y with sink := y.sink && !bitOf h.flags 0 } := by
  rw [(sessionOpened_spec s h m l k).2.2]
  dsimp only
  cases bitOf h.flags 0 with
  | true =>
    rw [if_pos rfl, Quad.get_map, Quad.get_set]
    split
    · simp [openedSession]
    · cases hy : s.mgmt.slots.get j with
      | none => rfl
      | some y => simp [hother j y hy]
  | false =>
    rw [if_neg Bool.false_ne_true, Quad.get_set]
    split
    · rfl
    · simp

end

theorem dropReport_dropReport (e : EventUnit) (n m : Option Byte) :
    { ({ e.dropReport with sink := n } : EventUnit).dropReport with sink := m } = { e.dropReport with sink := m } := by
  cases hr : e.report with
  | none => simp [dropReport_eq, hr]
  | some r => simp [dropReport_eq, hr]

theorem be16_halfOf (l : Half) : be16 (halfOf l.toNat) = be16 l := by rw [halfOf, BitVec.ofNat_toNat, BitVec.setWidth_eq]

/-- The state an accepted OPEN answers from: the renewed state with the earlier session ended and the new one in its slot. -/
def State.openedIn (s : State) (h : RequestHead) (mode : Byte) (lease : Half) (k : Fin 4) : State :=
  ((s.renewLease h.source).sessionEnded h.source).sessionOpened h (if mode = 1 then .edit else .observe) lease.toNat k

section
variable {s : State} {r : RequestHead} {mode : Byte} {lease : Half}

/-- The sink and its report once an OPEN is accepted (R154). -/
theorem openedIn_events (hs : s.SessionInv) (k : Fin 4) :
    (bitOf r.flags 0 = true → s.events.sink ≠ some r.source ∨ s.HoldsSink r.source →
      (s.openedIn r mode lease k).events = { s.events.dropReport with sink := some r.source }) ∧
    (bitOf r.flags 0 = false → s.HoldsSink r.source → (s.openedIn r mode lease k).events = { s.events.dropReport with sink := none }) ∧
    (bitOf r.flags 0 = false → ¬s.HoldsSink r.source → (s.openedIn r mode lease k).events = s.events) ∧
    (bitOf r.flags 0 = true → (s.openedIn r mode lease k).events.sink = some r.source) := by
  have hevents : (s.renewLease r.source).events = s.events := rfl
  obtain ⟨hheld, hfree⟩ := sessionEnded_events (renewLease_sessionInv (n := r.source) hs) r.source
  rw [renewLease_holdsSink, hevents] at hheld hfree
  rw [State.openedIn, sessionOpened_events]
  generalize ((s.renewLease r.source).sessionEnded r.source).events = e at hheld hfree
  refine ⟨fun hreport hsink => ?_, fun hreport h => ?_, fun hreport h => ?_, fun hreport => ?_⟩
  · by_cases h : s.HoldsSink r.source
    · rw [hheld h, if_pos ⟨hreport, by simp⟩, dropReport_dropReport]
    · rw [hfree h, if_pos ⟨hreport, hsink.resolve_right h⟩]
  · rw [if_neg (by simp [hreport]), hheld h]
  · rw [if_neg (by simp [hreport]), hfree h]
  · split
    · rfl
    · next hn => exact not_not.1 fun h => hn ⟨hreport, h⟩

/-- The sessions of other stations, once an OPEN is accepted, stand where they stood. -/
theorem openedIn_get (hs : s.SessionInv) (k j : Fin 4) : (s.openedIn r mode lease k).mgmt.slots.get j =
    if j = k then
      some { openedSession r (if mode = 1 then .edit else .observe) lease.toNat k with sink := bitOf r.flags 0 }
    else
      (((s.renewLease r.source).sessionEnded r.source).mgmt.slots.get j).map fun y => { y with sink := y.sink && !bitOf r.flags 0 } :=
  sessionOpened_get _ _ _ _ k j fun j y hy => ((sessionEnded_get (renewLease_sessionInv hs) _ j y).1 hy).2

/-- Once the renewed station's session has ended, the slots hold the other stations' sessions as they were. -/
theorem renewed_sessionEnded_get (hs : s.SessionInv) (n : Byte) (j : Fin 4) (y : Session) :
    ((s.renewLease n).sessionEnded n).mgmt.slots.get j = some y ↔ s.mgmt.slots.get j = some y ∧ y.station ≠ n := by
  rw [sessionEnded_get (renewLease_sessionInv hs)]
  exact and_congr_left fun hn => renewLease_get_other hn

/-- What an accepted OPEN leaves beside sessions, sink and staged work. -/
theorem openedIn_rest (s : State) (r : RequestHead) (mode : Byte) (lease : Half) (k : Fin 4) :
    SessionKept s (s.openedIn r mode lease k) ∧
    (s.openedIn r mode lease k).own = s.own ∧ (s.openedIn r mode lease k).ports = s.ports ∧
    (s.openedIn r mode lease k).store = s.store ∧ (s.openedIn r mode lease k).classifier = s.classifier ∧
    (s.openedIn r mode lease k).mgmt.restartPending = s.mgmt.restartPending ∧
    (s.openedIn r mode lease k).cfg.active = s.cfg.active ∧ (s.openedIn r mode lease k).cfg.armed = s.cfg.armed ∧
    (s.openedIn r mode lease k).cfg.generation = s.cfg.generation := by
  obtain ⟨hkept, hcfg, hmgmt⟩ := sessionOpened_spec ((s.renewLease r.source).sessionEnded r.source) r
    (if mode = 1 then .edit else .observe) lease.toNat k
  obtain ⟨oports, oown, ostore, oclassifier⟩ := sessionOpened_rest ((s.renewLease r.source).sessionEnded r.source) r
    (if mode = 1 then .edit else .observe) lease.toNat k
  obtain ⟨eports, eown, estore, eclassifier, epending, eactive, earmed, egeneration⟩ :=
    sessionEnded_rest (s.renewLease r.source) r.source
  refine ⟨((renewLease_kept s r.source).1.trans (sessionEnded_kept ..)).trans hkept, oown.trans eown, oports.trans eports,
    ostore.trans estore, oclassifier.trans eclassifier, ?_, ?_, ?_, ?_⟩
  · rw [State.openedIn, hmgmt]
    exact epending
  · exact (congrArg _ hcfg).trans eactive
  · exact (congrArg _ hcfg).trans earmed
  · exact (congrArg _ hcfg).trans egeneration

/-- An OPEN that no refusal stops is answered from the state with its session. -/
theorem exec_openSession_accepted (hr : s.resetHeld = false) (hs : s.SessionInv) (hv : validSource r = true) (hl : r.length.toNat = 5)
    (hm : ¬1 < mode.toNat) (hlease : ¬(lease.toNat < 100 ∨ 60000 < lease.toNat))
    (hclaim : mode = 1 → ∀ i x, s.mgmt.slots.get i = some x → x.mode = .edit → x.station = r.source)
    (hslot : ¬(sessionSlot s.mgmt.slots r.source = none ∧ freeSlot s.mgmt.slots = none)) :
    ∃ k, freeSlot ((s.renewLease r.source).sessionEnded r.source).mgmt.slots = some k ∧
      exec (.openSession r mode lease) s =
        .next (settle ((s.openedIn r mode lease k).answer r 0x01 (reply .ok (BitVec.ofNat 8 k.val :: be16 lease)) false)) := by
  obtain ⟨k, hk⟩ := freeSlot_sessionEnded (n := r.source) (renewLease_sessionInv (n := r.source) hs)
    (by rwa [sessionSlot_renewLease, freeSlot_renewLease])
  refine ⟨k, hk, ?_⟩
  simp only [Machine.exec, execOpen]
  rw [taken_running hr, openRequest_accepted hv hl hm hlease (claimant_none hclaim) hslot, acceptOpen_eq, hk]
  dsimp only
  rw [be16_halfOf]
  rfl

end

/-- Settles O36: from the state with the new session in its slot (`openedIn_get`, `openedIn_events`, `openedIn_rest`), which the response and
the follow-on steps leave alone. -/
theorem openStartsASession : Obligations.OpenStartsASession := by
  intro s r mode lease hr hs h0 h255 hl hmode hlow hhigh hclaim hroom
  have hslot : ¬(sessionSlot s.mgmt.slots r.source = none ∧ freeSlot s.mgmt.slots = none) := by
    rintro ⟨hnone, hfull⟩
    obtain ⟨i, x, hx, hn⟩ | ⟨i, hi⟩ := hroom
    · exact sessionSlot_eq_none.1 hnone i x hx hn
    · exact freeSlot_eq_none.1 hfull i hi
  obtain ⟨k, hk, hexec⟩ := exec_openSession_accepted hr hs (validSource_of h0 h255) hl (Nat.not_lt.2 hmode)
    (by omega : ¬(lease.toNat < 100 ∨ 60000 < lease.toNat)) hclaim hslot
  have hget := openedIn_get (r := r) (mode := mode) (lease := lease) hs k
  have hother := renewed_sessionEnded_get hs r.source
  obtain ⟨hheld, hleft, hkeptEvents, hsink⟩ := openedIn_events (r := r) (mode := mode) (lease := lease) hs k
  obtain ⟨ukept, uown, uports, ustore, uclassifier, upending, uactive, uarmed, ugeneration⟩ := openedIn_rest s r mode lease k
  rw [dropReport_eq] at hheld hleft
  generalize s.openedIn r mode lease k = u at *
  generalize hv : (s.renewLease r.source).sessionEnded r.source = v at *
  obtain ⟨akept, acfg, amgmt⟩ := answer_unmarked_kept u r 0x01 (reply .ok (BitVec.ofNat 8 k.val :: be16 lease)) false rfl
  obtain ⟨-, aevents, -⟩ := answer_rest u r 0x01 (r := reply .ok (BitVec.ofNat 8 k.val :: be16 lease)) false rfl
  generalize hw : u.answer r 0x01 (reply .ok (BitVec.ofNat 8 k.val :: be16 lease)) false = w at *
  have tkept := settle_kept w
  have tmgmt : (settle w).mgmt = u.mgmt := tkept.mgmt.trans amgmt
  have tcfg : (settle w).cfg = u.cfg := tkept.cfg.trans acfg
  refine ⟨settle w, u, k, _, hexec, congrArg settle hw.symm, uown, uports, ustore, uclassifier, ukept.sync, tmgmt.symm, by rw [tmgmt, upending], fun j y hy hn => ?_,
    fun j hj hown => ?_, ⟨fun hreport => hheld hreport, fun hreport => hleft hreport⟩,
    fun hreport hno => hkeptEvents hreport ?_, by rw [tmgmt, hget, if_pos rfl], rfl, rfl, rfl, rfl, rfl, ?_, rfl, fun j hj => ?_, fun j y hj hy => ?_,
    fun hreport => ?_, tkept.clock.trans (akept.clock.trans ukept.clock), by rw [tcfg, uactive], by rw [tcfg, uarmed], by rw [tcfg, ugeneration]⟩
  · have hvj := (hother j y).2 ⟨hy, hn⟩
    have hjk : j ≠ k := by
      rintro rfl
      rw [freeSlot_some hk] at hvj
      cases hvj
    refine ⟨hjk, ?_⟩
    rw [tmgmt, hget, if_neg hjk, hvj]
    rfl
  · rw [tmgmt, hget, if_neg hj, Option.map_eq_none_iff, Option.eq_none_iff_forall_ne_some]
    intro y hy
    obtain ⟨hy, hn⟩ := (hother j y).1 hy
    exact hn (hown y hy)
  · rintro ⟨j, y, hy, hn, hsink⟩
    rw [hno j y hy hn] at hsink
    cases hsink
  · rw [← be16_halfOf]
    rfl
  · obtain ⟨y, hy⟩ := Option.ne_none_iff_exists'.1 (freeSlot_lowest hk j hj)
    exact ⟨y, (hother j y).1 hy⟩
  · rw [tmgmt, hget, if_neg hj, Option.map_eq_some_iff] at hy
    obtain ⟨z, hz, rfl⟩ := hy
    obtain ⟨hz, hn⟩ := (hother j z).1 hz
    exact ⟨hn, fun hreport => by simp [show bitOf r.flags 0 = true from hreport], z, hz, rfl, rfl, rfl⟩
  · rw [(settle_follows w).sink, aevents]
    exact hsink hreport

end Sys2Proof.Machine
end

section
/-! Staging requests in turn (R45 to R47) and COMMIT (R51). -/

namespace Sys2Proof.Machine

open Sys2Proof

/-! ### Any staging request -/

/-- A staging row is a staging request with its judgement. -/
theorem exec_stagingRow {c : Instr} {q : RequestRow} (h : requestRow c = some q) (hcode : q.code = 0x10 ∨ q.code = 0x11 ∨ q.code = 0x12) :
    q.bodyLength ≤ 126 ∧ ∃ judge, StagingJudge judge ∧
      ∀ s, exec c s = taken s fun s => s.stageRequest q.head q.code (bodyLength q.head q.bodyLength) judge := by
  cases c <;> cases h
  case stageStreamPut b => exact ⟨Nat.le_of_ble_eq_true rfl, _, .streamPut b, fun _ => rfl⟩
  case stageStreamDelete n => exact ⟨Nat.le_of_ble_eq_true rfl, _, .streamDelete n, fun _ => rfl⟩
  case stageWindowPut b => exact ⟨Nat.le_of_ble_eq_true rfl, _, .windowPut b, fun _ => rfl⟩
  case stageWindowDelete p n => exact ⟨Nat.le_of_ble_eq_true rfl, _, .windowDelete p n, fun _ => rfl⟩
  case stageWindowClearPort p => exact ⟨Nat.le_of_ble_eq_true rfl, _, .windowClear p, fun _ => rfl⟩
  case stageParams b => exact ⟨paramsBodySize_le b, _, .params b, fun _ => rfl⟩
  all_goals simp at hcode

section
variable {s : State} {r : RequestHead} {n : Nat} {x : Session} {code : Byte} {judge : Configuration → Judgement}

/-- While a commit is armed nothing is judged (R45). -/
theorem stageRequest_armed (h : s.EditTurn r n x) (hn : n ≤ 126) (ha : s.cfg.armed ≠ none) :
    s.stageRequest r code (bodyLength r n) judge = (s.renewLease r.source).answer r code (reply .busyArmed []) true := by
  have hcfg : (s.renewLease r.source).cfg = s.cfg := (renewLease_kept s r.source).2.1
  simp only [State.stageRequest, serveRequest_inTurn h.toInTurn hn code true fun _ => h.edit, hcfg, Option.isSome_iff_ne_none.2 ha, if_true]

end

/-- Settles O42: from `stageRequest_armed`, and what a judgement leaves of the configuration unit (`stage_rest`). -/
theorem stagingIsRefusedWhileArmed : Obligations.StagingIsRefusedWhileArmed := by
  intro s c q x hq hcode h
  obtain ⟨hn, judge, hjudge, hexec⟩ := exec_stagingRow hq hcode
  rw [hexec, taken_running h.running]
  by_cases ha : s.cfg.armed = none
  · refine ⟨fun hne => absurd ha hne, fun t ht => ?_⟩
    cases ht
    rw [(settle_kept _).cfg, stageRequest_inTurn h hn ha, (answer_unmarked_kept _ _ _ _ _ (hjudge.unmarked s.cfg.staged)).2.1]
    obtain ⟨hactive, hgeneration, harmed, hwritten⟩ := stage_rest s.cfg (judge s.cfg.staged)
    exact ⟨hactive, hgeneration, harmed, hwritten.imp_right fun ⟨_, _, _, hedited⟩ => hedited⟩
  · rw [stageRequest_armed h hn ha]
    refine ⟨fun _ => rfl, fun t ht => ?_⟩
    cases ht
    rw [(settle_kept _).cfg, (answer_unmarked_kept _ _ _ (reply .busyArmed []) _ rfl).2.1]
    exact ⟨rfl, rfl, rfl, .inl rfl⟩

/-! ### STAGE_STREAM -/

theorem streamOf_eq_none {n : Half} : streamOf n = none ↔ n.toNat = 0 ∨ 4095 < n.toNat := by
  unfold streamOf
  split <;> simp <;> omega

theorem streamOf_eq_some {n : Half} (h : ¬(n.toNat = 0 ∨ 4095 < n.toNat)) : streamOf n = some (n.setWidth 12) :=
  if_pos (by omega)

/-- A table has no entry of a number in range exactly when none has its value. -/
theorem streamEntry_eq_none {c : Configuration} {n : Half} (h : ¬(n.toNat = 0 ∨ 4095 < n.toNat)) :
    streamEntry c (n.setWidth 12) = none ↔ ¬∃ e ∈ c.streams, e.stream.toNat = n.toNat := by
  have hwidth (e : StreamEntry) : e.stream = n.setWidth 12 ↔ e.stream.toNat = n.toNat := by
    rw [← BitVec.toNat_inj, BitVec.toNat_setWidth, Nat.mod_eq_of_lt (by omega)]
  simp [streamEntry, hwidth]

/-- The range step of PUT by field; a budget of one byte is always in range. -/
theorem firstFailing_streamBodyFields (b : StreamBody) : firstFailing (streamBodyFields b) =
    if b.stream.toNat = 0 ∨ 4095 < b.stream.toNat then some 1
    else if portOf b.ingress = none then some 2
    else if 32 ≤ b.egress.toNat then some 3
    else if 4 ≤ b.cls.toNat then some 4
    else if 1024 < b.maxPayload.toNat then some 5
    else if b.lifetime.toNat = 0 ∨ 16 < b.lifetime.toNat then some 7
    else if 8 ≤ b.report.toNat then some 8
    else none := by
  have hstream : (streamOf b.stream).isSome = true ↔ ¬(b.stream.toNat = 0 ∨ 4095 < b.stream.toNat) := by
    rw [← streamOf_eq_none, Option.isSome_iff_ne_none]
  have hport : (portOf b.ingress).isSome = true ↔ ¬portOf b.ingress = none := Option.isSome_iff_ne_none
  have hbudget : b.budget.toNat ≤ 255 := Nat.le_of_lt_succ b.budget.isLt
  have hlifetime : 1 ≤ b.lifetime.toNat ∧ b.lifetime.toNat ≤ 16 ↔ ¬(b.lifetime.toNat = 0 ∨ 16 < b.lifetime.toNat) := by omega
  simp only [streamBodyFields, firstFailing_cons, firstFailing_nil, decide_eq_true_eq, hstream, hport, hbudget, hlifetime, ← Nat.not_le,
    if_true, ite_not]

theorem judgeStreamPut_range {b : StreamBody} {c : Configuration} {pos : Nat} (h : firstFailing (streamBodyFields b) = some pos) :
    judgeStreamPut b c = refuse .range [BitVec.ofNat 8 pos] := by
  rw [judgeStreamPut, h]
  rfl

theorem judgeStreamPut_pass {b : StreamBody} {c : Configuration} (h : firstFailing (streamBodyFields b) = none) :
    judgeStreamPut b c =
      if (streamBodyEntry b).egress = PerPort.fill false then invalid 1 0
      else if (streamBodyEntry b).egress.get (streamBodyEntry b).ingress = true then invalid 2 0
      else if streamEntry c (streamBodyEntry b).stream = none ∧ 256 ≤ c.streams.length then refuse .tableFull []
      else write { c with streams := putStream (streamBodyEntry b) c.streams } [] := by
  rw [judgeStreamPut, h]
  rfl

theorem streamBodyEntry_eq {b : StreamBody} {p : Port} (hp : portOf b.ingress = some p) : streamBodyEntry b =
    ⟨b.stream.setWidth 12, p, portSetOf b.egress, Fin.ofNat 4 b.cls.toNat, b.maxPayload.toNat, b.budget.toNat, b.lifetime.toNat,
      reportSetOf b.report⟩ := by
  rw [streamBodyEntry, hp]
  rfl

/-- Settles O43: the range step (`firstFailing_streamBodyFields`), then the judgement's further checks in order. -/
theorem stageStreamPutAddsTheEntry : Obligations.StageStreamPutAddsTheEntry := by
  intro s r x b h ha
  have hfields := firstFailing_streamBodyFields b
  have refused {status : Status} {body : List Byte} (hj : judgeStreamPut b s.cfg.staged = refuse status body) :
      exec (.stageStreamPut r b) s = answered (s.renewLease r.source) r 0x10 status body :=
    stageRequest_refused h (by decide) ha hj
  have range {pos : Nat} (hpos : firstFailing (streamBodyFields b) = some pos) :
      exec (.stageStreamPut r b) s = answered (s.renewLease r.source) r 0x10 .range [BitVec.ofNat 8 pos] :=
    refused (judgeStreamPut_range hpos)
  have hknown : ¬(1 ≤ b.stream.toNat ∧ b.stream.toNat ≤ 4095) ↔ b.stream.toNat = 0 ∨ 4095 < b.stream.toNat := by omega
  dsimp only
  split
  next hout => exact range (hfields.trans (if_pos (hknown.1 hout)))
  next hin =>
  have hin := mt hknown.2 hin
  rw [if_neg hin] at hfields
  split
  next hp => exact range (hfields.trans (if_pos hp))
  next p hp =>
  rw [if_neg (by simp [hp])] at hfields
  refine ite_of_eq_ite hfields range fun hfields => ite_of_eq_ite hfields range fun hfields => ite_of_eq_ite hfields range fun hfields =>
    ite_of_eq_ite hfields range fun hfields => ite_of_eq_ite hfields range fun hfields => ?_
  have hj := judgeStreamPut_pass (c := s.cfg.staged) hfields
  rw [streamBodyEntry_eq hp] at hj
  simp only [streamEntry_eq_none hin] at hj
  refine ite_of_eq_ite hj refused fun hj => ite_of_eq_ite hj refused fun hj => ite_of_eq_ite hj refused fun hj =>
    ⟨_, stageRequest_written h (by decide) ha hj, rfl, rfl, ?_, fun n hn => ?_⟩
  · exact (streamEntry_put ..).trans (if_pos rfl)
  · exact (streamEntry_put ..).trans (if_neg hn.symm)

/-- Settles O44: a known number is the only check before the entry is looked for. -/
theorem stageStreamDeleteRemovesTheEntry : Obligations.StageStreamDeleteRemovesTheEntry := by
  intro s r x stream h ha
  have refused {status : Status} {body : List Byte} (hj : judgeStreamDelete stream s.cfg.staged = refuse status body) :
      exec (.stageStreamDelete r stream) s = answered (s.renewLease r.source) r 0x10 status body :=
    stageRequest_refused h (by decide) ha hj
  dsimp only
  split
  next hout => exact refused (by rw [judgeStreamDelete, streamOf_eq_none.2 hout])
  next hin =>
  have hj : judgeStreamDelete stream s.cfg.staged =
      if streamEntry s.cfg.staged (stream.setWidth 12) = none then refuse .notFound []
      else write { s.cfg.staged with streams := s.cfg.staged.streams.filter fun e => e.stream ≠ stream.setWidth 12 } [] := by
    rw [judgeStreamDelete, streamOf_eq_some hin]
  refine ite_of_eq_ite hj refused fun hj => ⟨_, stageRequest_written h (by decide) ha hj, rfl, rfl, ?_, fun n hn => ?_⟩
  · simp [streamEntry]
  · rw [streamEntry, streamEntry, List.find?_filter]
    refine List.find?_congr fun e _ => ?_
    by_cases he : e.stream = n
    · simp [he, hn]
    · simp [he]

/-! ### COMMIT -/

section
variable {c : ConfigUnit} {now target : Word}

theorem resolveTarget_eq_none : resolveTarget now target = none ↔
    target ≠ 0 ∧ ((target - now).toNat = 0 ∨ 1024 < (target - now).toNat) := by
  unfold resolveTarget
  split
  · next ht => simp [ht]
  · next ht =>
    rw [ite_eq_right_iff, and_iff_right ht]
    simp only [reduceCtorEq, imp_false]
    omega

theorem resolveTarget_eq_some (h : ¬(target ≠ 0 ∧ ((target - now).toNat = 0 ∨ 1024 < (target - now).toNat))) :
    resolveTarget now target = some (if target = 0 then now + 1 else target) := by
  unfold resolveTarget
  split
  · rfl
  · next ht =>
    have hr := not_and.1 h ht
    rw [if_pos (by omega)]

theorem commit_armed (h : c.armed ≠ none) : c.commit now target = (c, reply .busyArmed []) :=
  if_pos (Option.isSome_iff_ne_none.2 h)

/-- With nothing armed: the target, then the validation. -/
theorem commit_unarmed (h : c.armed = none) : c.commit now target =
    (resolveTarget now target).elim (c, reply .range (be32 now)) fun x =>
      (validate c.staged).elim ({ c with armed := some x }, reply .armed (be32 x ++ be16 c.generation)) fun o =>
        (c, reply .invalid o.body) := by
  rw [ConfigUnit.commit, h]
  cases resolveTarget now target with
  | none => rfl
  | some x => cases validate c.staged <;> simp

end

theorem exec_commit_inTurn {s : State} {r : RequestHead} {x : Session} {target : Word} (h : s.EditTurn r 4 x) {c : ConfigUnit} {status : Status}
    {body : List Byte} (hc : s.cfg.commit s.clock.number target = (c, reply status body)) :
    exec (.commit r target) s = answered ((s.renewLease r.source).setCfg c) r 0x13 status body := by
  refine taken_serveRequest_inTurn h.toInTurn (by decide) (fun _ => h.edit) ?_
  obtain ⟨hkept, hcfg, -⟩ := renewLease_kept s r.source
  rw [hcfg, hkept.clock, hc]

/-- Settles O49, by the answers of `ConfigUnit.commit` in their order. -/
theorem commitArmsAValidPendingCopy : Obligations.CommitArmsAValidPendingCopy := by
  intro s r x target h
  dsimp only
  split
  next ha => exact exec_commit_inTurn h (commit_armed ha)
  next ha =>
  have hj := commit_unarmed (now := s.clock.number) (target := target) (not_not.1 ha)
  split
  next ht =>
    rw [resolveTarget_eq_none.2 ht] at hj
    exact exec_commit_inTurn h hj
  next ht =>
  rw [resolveTarget_eq_some ht] at hj
  cases hv : validate s.cfg.staged with
  | some o =>
    rw [hv] at hj
    exact exec_commit_inTurn h hj
  | none =>
    rw [hv] at hj
    exact exec_commit_inTurn h hj

end Sys2Proof.Machine
end

section
/-! READ and its objects (R63, R104, R143, R161), and ACK (R158). -/

namespace Sys2Proof.Machine

open Sys2Proof

section
variable {s : State} {r : RequestHead} {n : Nat} {x : Session}

/-- A READ in turn that answers from the state changes nothing but the renewal and the record (R143). -/
theorem taken_readRequest {f : State → Reply} {status : Status} {body : List Byte} (h : s.InTurn r n x) (hn : n ≤ 126)
    (hf : f (s.renewLease r.source) = reply status body) :
    (taken s fun s => s.readRequest r n f) = answered (s.renewLease r.source) r 0x04 status body :=
  taken_serveRequest_inTurn (act := fun t => (t, f t)) h hn nofun (congrArg (Prod.mk _) hf)

end

/-! ### The copy and the stream a READ names -/

theorem copyOf_eq_none {c : ConfigUnit} {copy : Byte} (h : 1 < copy.toNat) : copyOf c copy = none := by
  have h0 : copy ≠ 0 := by bv_omega
  have h1 : copy ≠ 1 := by bv_omega
  rw [copyOf, if_neg h0, if_neg h1]

theorem copyOf_eq_some {c : ConfigUnit} {copy : Byte} (h : copy.toNat ≤ 1) :
    copyOf c copy = some (if copy = 0 then c.active else c.staged) := by
  unfold copyOf
  split
  · rfl
  · rw [if_pos (by bv_omega)]

section
variable {s : State} {r : RequestHead} {x : Session}

theorem readStream_noCopy (h : s.InTurn r 4 x) {copy : Byte} {stream : Half} (hc : copyOf s.cfg copy = none) :
    exec (.readStream r copy stream) s = answered (s.renewLease r.source) r 0x04 .range [] := by
  refine taken_readRequest h (by decide) ?_
  rw [(renewLease_kept s r.source).2.1, hc]

theorem readWindow_noCopy (h : s.InTurn r 4 x) {copy port index : Byte} (hc : copyOf s.cfg copy = none) :
    exec (.readWindow r copy port index) s = answered (s.renewLease r.source) r 0x04 .range [] := by
  refine taken_readRequest h (by decide) ?_
  rw [(renewLease_kept s r.source).2.1, hc]

/-- READ STREAM of a copy that exists: the number, then the entry. -/
theorem readStream_copy (h : s.InTurn r 4 x) {copy : Byte} {stream : Half} {c : Configuration} (hc : copyOf s.cfg copy = some c) :
    if stream.toNat = 0 ∨ 4095 < stream.toNat then
      exec (.readStream r copy stream) s = answered (s.renewLease r.source) r 0x04 .range []
    else
      (streamEntry c (stream.setWidth 12) = none →
        exec (.readStream r copy stream) s = answered (s.renewLease r.source) r 0x04 .notFound []) ∧
      ∀ e, streamEntry c (stream.setWidth 12) = some e →
        exec (.readStream r copy stream) s = answered (s.renewLease r.source) r 0x04 .ok (streamBytes e) := by
  have hcfg := (renewLease_kept s r.source).2.1
  split
  next hs =>
    refine taken_readRequest h (by decide) ?_
    rw [hcfg, hc, streamOf_eq_none.2 hs]
  next hs =>
    refine ⟨fun he => ?_, fun e he => ?_⟩ <;>
      exact taken_readRequest h (by decide) (by rw [hcfg, hc, streamOf_eq_some hs]; simp only [he])

/-- READ WINDOW of a copy that exists: the port, then the window of that index. -/
theorem readWindow_copy (h : s.InTurn r 4 x) {copy port index : Byte} {c : Configuration} (hc : copyOf s.cfg copy = some c) :
    (portOf port = none → exec (.readWindow r copy port index) s = answered (s.renewLease r.source) r 0x04 .range []) ∧
    ∀ p, portOf port = some p →
      ((portWindows c p)[index.toNat]? = none →
        exec (.readWindow r copy port index) s = answered (s.renewLease r.source) r 0x04 .notFound []) ∧
      ∀ w, (portWindows c p)[index.toNat]? = some w →
        exec (.readWindow r copy port index) s = answered (s.renewLease r.source) r 0x04 .ok (windowBytes w) := by
  have hcfg := (renewLease_kept s r.source).2.1
  refine ⟨fun hp => ?_, fun p hp => ⟨fun hw => ?_, fun w hw => ?_⟩⟩
  · refine taken_readRequest h (by decide) ?_
    rw [hcfg, hc, hp]
  all_goals exact taken_readRequest h (by decide) (by rw [hcfg, hc, hp]; simp only [hw])

end

/-- Settles O40, object by object. -/
theorem readReturnsTheObject : Obligations.ReadReturnsTheObject := by
  intro s t r x ht
  subst ht
  refine ⟨fun h => ⟨?identity, ?commit, ?sessions, ?sync, ?noError, ?events, ?noTimer⟩, fun h copy port => ⟨?params, ?port⟩,
    fun h stream => ?counters, fun h copy port index stream => ⟨fun hc => ?_, fun hc => ⟨?stream, ?window⟩⟩⟩
  case identity =>
    refine taken_readRequest h (by decide) ?_
    have hpolicy : policyByte s.straps.policy = if s.straps.policy = .pass then 0 else 1 := by cases s.straps.policy <;> rfl
    rw [← hpolicy]
    rfl
  case commit =>
    refine taken_readRequest h (by decide) ?_
    have hflag : flagByte s.cfg.armed.isSome = if s.cfg.armed = none then 0 else 1 := by cases s.cfg.armed <;> rfl
    rw [← hflag]
    rfl
  case sessions => exact taken_readRequest h (by decide) rfl
  case sync =>
    intro e he
    refine taken_serveRequest_inTurn h (by decide) nofun ?_
    rw [if_neg (by rw [(renewLease_kept s r.source).1.sync, he]; simp)]
    rfl
  case noError =>
    intro he
    refine taken_serveRequest_inTurn h (by decide) nofun ?_
    rw [if_pos (by rw [(renewLease_kept s r.source).1.sync, he])]
    rfl
  case events =>
    intro ms hms
    refine taken_serveRequest_inTurn h (by decide) nofun ?_
    rw [if_neg (by rw [(renewLease_kept s r.source).2.2.2.2.2.1, hms]; simp)]
    rfl
  case noTimer =>
    intro hms
    refine taken_serveRequest_inTurn h (by decide) nofun ?_
    rw [if_pos (by rw [(renewLease_kept s r.source).2.2.2.2.2.1, hms])]
    rfl
  case params =>
    split
    next hc => exact taken_readRequest h (by decide) (by rw [hc]; rfl)
    next hc =>
      split
      next hc1 => exact taken_readRequest h (by decide) (by rw [hc1]; rfl)
      next hc1 => exact taken_readRequest h (by decide) (by rw [copyOf_eq_none (by bv_omega)])
  case port =>
    split
    next hp => exact taken_serveRequest_inTurn h (by decide) nofun (by rw [hp])
    next p hp => exact taken_serveRequest_inTurn h (by decide) nofun (by rw [hp]; rfl)
  case counters =>
    split
    next hs => exact taken_readRequest h (by decide) (by rw [streamOf_eq_none.2 hs])
    next hs =>
      have hrecords : (s.renewLease r.source).classifier = s.classifier := (renewLease_kept s r.source).2.2.2.2.2.2
      split
      next hr => exact taken_readRequest h (by decide) (by rw [streamOf_eq_some hs, hrecords]; simp only [hr])
      next c hr => exact taken_readRequest h (by decide) (by rw [streamOf_eq_some hs, hrecords]; simp only [hr]; rfl)
  · exact ⟨readStream_noCopy h (copyOf_eq_none hc), readWindow_noCopy h (copyOf_eq_none hc)⟩
  case stream =>
    have hread := readStream_copy h (stream := stream) (copyOf_eq_some (c := s.cfg) hc)
    split
    next hs => rwa [if_pos hs] at hread
    next hs =>
      rw [if_neg hs] at hread
      obtain ⟨hnone, hsome⟩ := hread
      split
      next he => exact hnone he
      next e he => exact hsome e he
  case window =>
    obtain ⟨hnone, hsome⟩ := readWindow_copy h (port := port) (index := index) (copyOf_eq_some (c := s.cfg) hc)
    split
    next hp => exact hnone hp
    next p hp =>
      split
      next hw => exact (hsome p hp).1 hw
      next w hw => exact (hsome p hp).2 w hw

/-! ### ACK -/

section
variable {e : EventUnit} {n : Half}

theorem ackOutOfRange_iff : e.ackOutOfRange n = true ↔
    (∃ y ∈ e.queue, y.sent = false ∧ later y.notice.sequence n = false) ∨ later n e.lastAssigned = true := by
  simp [EventUnit.ackOutOfRange]

theorem acknowledge_eq : e.acknowledge n =
    if ∃ y ∈ e.queue.filter (fun y : QueuedNotice => !(y.sent && !later y.notice.sequence n)), y.sent = true then
      { e with queue := e.queue.filter fun y : QueuedNotice => !(y.sent && !later y.notice.sequence n) }
    else { e with queue := e.queue.filter fun y : QueuedNotice => !(y.sent && !later y.notice.sequence n), report := none, timer := none } :=
  if_congr List.any_eq_true rfl rfl

/-- What a filter takes out and what it leaves make up the list. -/
theorem length_filter_eq_sub {α : Type} (p : α → Bool) (l : List α) :
    (l.filter p).length = l.length - (l.filter fun x => !p x).length := by
  have h := List.length_eq_length_filter_add (l := l) p
  omega

end

theorem exec_ack_inTurn {s : State} {r : RequestHead} {x : Session} {n : Half} (h : s.InTurn r 2 x) {e : EventUnit} {status : Status}
    {body : List Byte} (he : s.events.ack n = (e, reply status body)) :
    exec (.ack r n) s = answered ((s.renewLease r.source).setEvents e) r 0x05 status body := by
  refine taken_serveRequest_inTurn h (by decide) nofun ?_
  rw [(renewLease_kept s r.source).2.2.2.2.2.1, he]

/-- Settles O41: the range test, then what an acknowledgement removes. -/
theorem ackRemovesCoveredNotices : Obligations.AckRemovesCoveredNotices := by
  intro s r x n h
  refine ⟨fun hout => ?_, fun hin => ?_⟩
  · have hflag : flagByte s.events.report.isSome = if s.events.report = none then 0 else 1 := by
      cases s.events.report <;> rfl
    rw [exec_ack_inTurn h (if_pos (ackOutOfRange_iff.2 hout)), EventUnit.ackRangeBody, hflag]
    rfl
  · refine exec_ack_inTurn h ?_
    rw [EventUnit.ack, if_neg (mt ackOutOfRange_iff.1 hin), acknowledge_eq, length_filter_eq_sub]
    rfl

end Sys2Proof.Machine
end

section
/-! The event unit's own rows (R153, R155 to R157) and the rows of the link and of drains (R123, R126). -/

namespace Sys2Proof.Machine

open Sys2Proof

/-! ### OVERFLOW_QUEUED -/

theorem overflowInQueue_eq_false {q : List QueuedNotice} : ¬overflowInQueue q = true ↔ ∀ x ∈ q, x.notice.kind ≠ .overflow := by
  simp [overflowInQueue]

/-- The notice is queued exactly under the three conditions (R153). -/
theorem queueOverflow_eq (e : EventUnit) (n : Word) : e.queueOverflow n =
    if e.overflowSet ≠ [] ∧ (e.queue.filter fun x => x.notice.kind ≠ .overflow).length < 31 ∧ ∀ x ∈ e.queue, x.notice.kind ≠ .overflow then
      { e with
        queue := e.queue ++ [⟨⟨e.lastAssigned + 1, .overflow, none, none, n, overflowDetail e.overflowSet e.lostCount⟩, false⟩]
        lastAssigned := e.lastAssigned + 1, overflowSet := [], lostCount := 0 }
    else e :=
  if_congr (and_congr_right' (and_congr_right' overflowInQueue_eq_false)) rfl rfl

/-- Settles O31. -/
theorem overflowNoticeIsQueued : Obligations.OverflowNoticeIsQueued := by
  refine fun s hr => ⟨s.queueOverflow, by simp only [Machine.exec, execOverflowQueued]; rw [taken_running hr], rfl, fun h => ?_, fun h => ?_⟩
  · exact (queueOverflow_eq ..).trans (if_pos h)
  · exact (queueOverflow_eq ..).trans (if_neg h)

/-! ### REPORT_BUILD -/

section
variable {s : State} {sink : Byte}

theorem buildReport_eq (hs : s.events.sink = some sink) (hr : s.events.report = none) (hu : unsentNotices s.events.queue ≠ [])
    (hf : s.slotFree = true) : s.buildReport =
      (s.setEvents
        { s.events with
          queue := markSent 8 s.events.queue, report := some { sends := 1, due := false },
          timer := some s.cfg.active.params.retransmitTime }).appendOwn
        (s.reportFrame sink ((unsentNotices s.events.queue).take 8)) := by
  rw [State.buildReport, hs]
  exact if_pos ⟨hr, hu, hf⟩

theorem retransmit_eq {r : Report} (hs : s.events.sink = some sink) (hr : s.events.report = some r) (hd : r.due = true)
    (hf : s.slotFree = true) : s.retransmit =
      (s.setEvents
        { s.events with
          report := some { sends := r.sends + 1, due := false }, timer := some s.cfg.active.params.retransmitTime }).appendOwn
        (s.reportFrame sink ((sentNotices s.events.queue).take 8)) := by
  rw [State.retransmit, hs, hr]
  exact if_pos ⟨hd, hf⟩

end

/-- Where no notice was SENT, the SENT ones after marking are the oldest. -/
theorem markSent_sent {q : List QueuedNotice} (h : ∀ x ∈ q, x.sent = false) (n : Nat) :
    sentNotices (markSent n q) = (unsentNotices q).take n := by
  have hall : q.filter (fun x => !x.sent) = q := List.filter_eq_self.2 fun x hx => by rw [h x hx]; rfl
  have hmarked : ((q.take n).map fun x => { x with sent := true }).filter (·.sent) = (q.take n).map fun x => { x with sent := true } :=
    List.filter_eq_self.2 fun x hx => by obtain ⟨y, -, rfl⟩ := List.mem_map.1 hx; rfl
  have hrest : (q.drop n).filter (·.sent) = [] :=
    List.filter_eq_nil_iff.2 fun x hx => by rw [h x (List.mem_of_mem_drop hx)]; exact Bool.false_ne_true
  rw [sentNotices, unsentNotices, hall, markSent_of_unsent h, List.filter_append, hmarked, hrest, List.append_nil, List.map_map, List.map_take]
  rfl

/-- Settles O32: what is built and that nothing is built otherwise (`buildReport_eq`, `buildReport_not_ready`). -/
theorem reportIsBuiltWhenItsConditionsHold : Obligations.ReportIsBuiltWhenItsConditionsHold := by
  intro s hr
  have hexec : exec .reportBuild s = .next (settle s.buildReport) := by
    simp only [Machine.exec, execReportBuild]
    rw [taken_running hr]
  dsimp only
  rw [hexec]
  refine ⟨fun sink hsink hreport hfirst hslots => ⟨s.buildReport, rfl, ?_⟩, fun h => ?_⟩
  · have hunsent : unsentNotices s.events.queue ≠ [] := fun hn => hfirst (by rw [unsentNotices] at hn; rw [hn]; rfl)
    rw [buildReport_eq hsink hreport hunsent (slotFree_iff.2 hslots)]
    obtain ⟨hown, hports, hstore, hevents, -, -⟩ := appendOwn_rest
      (s.setEvents
        { s.events with
          queue := markSent 8 s.events.queue, report := some { sends := 1, due := false },
          timer := some s.cfg.active.params.retransmitTime })
      (s.reportFrame sink ((unsentNotices s.events.queue).take 8))
    rw [hown, hports, hstore, hevents]
    exact ⟨rfl, rfl, rfl, hsink, rfl, markSent_notices .., fun hall => markSent_sent hall 8, rfl, rfl⟩
  · have hnot : s.reportReady = false := by
      rw [State.reportReady, ← Bool.not_eq_true]
      simp only [Bool.and_eq_true, Option.isSome_iff_ne_none, Option.isNone_iff_eq_none, Bool.not_eq_true', List.isEmpty_eq_false_iff]
      rintro ⟨⟨⟨hsink, hreport⟩, hunsent⟩, hfree⟩
      have hslots := slotFree_iff.1 hfree
      rcases h with h | h | h | h
      · exact hsink h
      · exact h hreport
      · exact hunsent ((List.take_eq_nil_iff.1 h).resolve_left (by decide))
      · exact absurd hslots (Nat.not_lt.2 h)
    rw [buildReport_not_ready s hnot]

/-! ### RETRANSMIT_TIMER_EXPIRY and DEFERRED_RETRANSMISSION -/

theorem exec_retransmitTimerExpiry_stays {s : State} (hr : s.resetHeld = false) (ht : s.events.timer ≠ some 0) :
    exec .retransmitTimerExpiry s = .next (settle s) := by
  simp only [Machine.exec, execRetransmitTimerExpiry]
  rw [taken_running hr]
  cases s.events.report with
  | none => rfl
  | some r =>
    dsimp only
    rw [if_neg ht]

theorem exec_retransmitTimerExpiry {s : State} {r : Report} (hr : s.resetHeld = false) (ht : s.events.timer = some 0)
    (hp : s.events.report = some r) : exec .retransmitTimerExpiry s = .next (settle (s.expireTimer r)) := by
  simp only [Machine.exec, execRetransmitTimerExpiry]
  rw [taken_running hr, hp]
  dsimp only
  rw [if_pos ht]

/-- The three ways an expired timer is taken: another send is due, or the sink is lost, or there is none to lose. -/
theorem expireTimer_cases (s : State) (r : Report) :
    (r.sends < 4 ∧ s.expireTimer r = s.setEvents { s.events with timer := none, report := some { r with due := true } }) ∨
    (¬r.sends < 4 ∧ ∃ n, s.events.sink = some n ∧ s.expireTimer r = s.loseSink n) ∨
    (¬r.sends < 4 ∧ s.events.sink = none ∧ s.expireTimer r = s.setEvents s.events.unsend) := by
  unfold State.expireTimer
  split
  · next h => exact .inl ⟨h, rfl⟩
  · next h =>
    cases s.events.sink with
    | none => exact .inr (.inr ⟨h, rfl, rfl⟩)
    | some n => exact .inr (.inl ⟨h, n, rfl, rfl⟩)

theorem loseSink_events (s : State) (n : Byte) : (s.loseSink n).events =
    EventUnit.raise { s.events.unsend with sink := none } .sinkLost none none s.clock.number (n.setWidth 32) := rfl

theorem loseSink_get {s : State} {n : Byte} {i : Fin 4} {x : Session} (hx : s.mgmt.slots.get i = some x) :
    (s.loseSink n).mgmt.slots.get i = some { x with sink := if x.station = n then false else x.sink } := by
  have hslots : (s.loseSink n).mgmt.slots =
      s.mgmt.slots.map fun x => x.map fun y => if y.station = n then { y with sink := false } else y := rfl
  rw [hslots, Quad.get_map, hx, Option.map_some]
  split <;> rfl

/-- Settles O33: the ways an expiry is taken (`expireTimer_cases`), and what a retransmission appends (`retransmit_eq`). -/
theorem retransmissionsAndSinkLoss : Obligations.RetransmissionsAndSinkLoss := by
  refine ⟨fun s hr ht => exec_retransmitTimerExpiry_stays hr ht, fun s r hr ht hp => ?_, fun s r sink hr hs hp hd => ?_⟩
  · refine ⟨_, exec_retransmitTimerExpiry hr ht hp, ?_⟩
    obtain ⟨hsends, heq⟩ | ⟨hsends, n, hn, heq⟩ | ⟨hsends, hn, heq⟩ := expireTimer_cases s r
    · rw [heq]
      exact ⟨rfl, rfl, rfl, rfl, fun _ => rfl, fun _ h => absurd h (Nat.not_le.2 hsends)⟩
    · obtain ⟨hkept, hcfg, hports, hown, -⟩ := loseSink_kept s n
      rw [heq]
      refine ⟨hkept.clock, hports, hown, hcfg, fun h => absurd h hsends, fun sink _ hsink => ?_⟩
      obtain rfl := Option.some.inj (hn.symm.trans hsink)
      exact ⟨loseSink_events .., fun i x hx => loseSink_get hx⟩
    · rw [heq]
      exact ⟨rfl, rfl, rfl, rfl, fun h => absurd h hsends, fun sink _ hsink => by rw [hn] at hsink; cases hsink⟩
  · have hexec : exec .deferredRetransmission s = .next (settle s.retransmit) := by
      simp only [Machine.exec, execDeferredRetransmission]
      rw [taken_running hr]
    dsimp only
    rw [hexec]
    refine ⟨fun hslots => ⟨_, rfl, ?_⟩, fun hslots => ?_⟩
    · rw [retransmit_eq hs hp hd (slotFree_iff.2 hslots)]
      have hkept := appendOwn_kept
        (s.setEvents
          { s.events with
            report := some { sends := r.sends + 1, due := false }, timer := some s.cfg.active.params.retransmitTime })
        (s.reportFrame sink ((sentNotices s.events.queue).take 8))
      obtain ⟨hown, hports, hstore, hevents, -, -⟩ := appendOwn_rest
        (s.setEvents
          { s.events with
            report := some { sends := r.sends + 1, due := false }, timer := some s.cfg.active.params.retransmitTime })
        (s.reportFrame sink ((sentNotices s.events.queue).take 8))
      rw [hown, hports, hstore, hevents, hkept.mgmt]
      exact ⟨rfl, rfl, rfl, rfl, rfl⟩
    · have hnot : s.retransmitReady = false := by
        rw [State.retransmitReady, Bool.and_eq_false_iff]
        exact .inr (Bool.eq_false_iff.2 fun hfree => absurd (slotFree_iff.1 hfree) (Nat.not_lt.2 hslots))
      rw [retransmit_not_ready s hnot]

/-! ### LINK_RETURN and DRAIN_COMPLETION -/

theorem exec_linkReturn {s : State} {p : Port} (hr : s.resetHeld = false) (hl : (s.ports.get p).link = false) :
    exec (.linkReturn p) s =
      .next (settle (((s.onPort p fun u => { u with link := true }).raise .linkChange (some p) none 1).prompt p)) := by
  simp only [Machine.exec, execLinkReturn]
  rw [taken_running hr, if_neg (by simp [hl])]
  rfl

theorem exec_drainCompletion {s : State} {p : Port} (hr : s.resetHeld = false) :
    exec (.drainCompletion p) s = .next (settle (s.completeDrain p)) := by
  simp only [Machine.exec, execDrainCompletion]
  rw [taken_running hr]

/-- A completed drain (R126). -/
theorem completeDrain_complete {s : State} {p : Port} {r : DrainRecord} (ha : (s.ports.get p).admin = .draining)
    (hd : (s.ports.get p).drain = some r) (ht : (s.ports.get p).tx = .idle) (hq : ∀ c, (s.ports.get p).queues.get c = []) :
    s.completeDrain p = (s.onPort p fun u => { u with admin := .drained, drain := none }).raise .drainDone (some p) none
      ((BitVec.ofNat 24 r.flushed).setWidth 32) := by
  unfold State.completeDrain
  dsimp only
  rw [if_pos ⟨ha, (isIdle_iff _).2 ht, (queuesEmpty_iff _).2 hq⟩, hd, drainDetail_complete]
  rfl

/-- A drain that still sends, or holds descriptors, goes on. -/
theorem completeDrain_goesOn {s : State} {p : Port} (h : (s.ports.get p).tx ≠ .idle ∨ ∃ c, (s.ports.get p).queues.get c ≠ []) :
    s.completeDrain p = s := by
  refine if_neg ?_
  rintro ⟨-, ht, hq⟩
  rcases h with h | ⟨c, hc⟩
  · exact h ((isIdle_iff _).1 ht)
  · exact hc ((queuesEmpty_iff _).1 hq c)

/-- Settles O28. -/
theorem linkReturnAndDrainCompletion : Obligations.LinkReturnAndDrainCompletion := by
  refine ⟨fun s p hr hl => ⟨_, exec_linkReturn hr hl, ?_, fun q hq => ?_, rfl, fun q => ?_, rfl, rfl, rfl, rfl, rfl⟩,
    fun s p r hr ha hd => ⟨fun ht hq => ⟨_, exec_drainCompletion hr, ?_⟩, fun h => ?_⟩⟩
  · exact (PerPort.get_set ..).trans (if_pos rfl)
  · exact (PerPort.get_set ..).trans (if_neg hq)
  · refine (PerPort.get_set ..).trans ?_
    split
    · next hq => simp [hq]
    · next hq => simp [hq]; rfl
  · rw [completeDrain_complete ha hd ht hq]
    refine ⟨?_, fun q hq => ?_, rfl, rfl, rfl, rfl, rfl⟩
    · exact (PerPort.get_set ..).trans (if_pos rfl)
    · exact (PerPort.get_set ..).trans (if_neg hq)
  · rw [exec_drainCompletion hr, completeDrain_goesOn h]

end Sys2Proof.Machine
end

section
/-! The normal ends of transmissions (R71, R80, R103, R145). -/

namespace Sys2Proof.Machine

open Sys2Proof

theorem advance_queues (s : State) (n : Nat) (p : Port) : ((s.advance n).ports.get p).queues = (s.ports.get p).queues := by
  rw [advance_port]
  rfl

theorem advance_count (s : State) (n : Nat) (p : Port) : ((s.advance n).ports.get p).count = (s.ports.get p).count := by
  rw [advance_port]
  rfl

theorem onPort_get_self (s : State) (p : Port) (f : PortUnit → PortUnit) : (s.onPort p f).ports.get p = f (s.ports.get p) :=
  (PerPort.get_set ..).trans (if_pos rfl)

theorem onPort_get (s : State) (p : Port) (f : PortUnit → PortUnit) (q : Port) :
    (s.onPort p f).ports.get q = if q = p then f (s.ports.get p) else s.ports.get q := PerPort.get_set ..

/-- A port asked for a choice is asked. -/
theorem prompt_choiceDue (s : State) (p : Port) : (s.prompt p).aux.choiceDue.get p = true := (PerPort.get_set ..).trans (if_pos rfl)

/-! ### DATA_TX_END -/

theorem exec_dataTxEnd {s : State} {p : Port} {d : Descriptor} {occ rem : Nat} (hr : s.resetHeld = false)
    (ht : (s.ports.get p).tx = .busy (.data d) occ rem) : exec (.dataTxEnd p) s = .next (settle ((s.advance rem).endData p d)) := by
  simp only [Machine.exec, execDataTxEnd]
  rw [taken_running hr, ht]

/-- A port whose transmission has ended, and was counted. -/
def PortUnit.sent (f : PortCounters → PortCounters) (u : PortUnit) : PortUnit := { u with tx := .idle, count := f u.count }

theorem sent_ports (s : State) (p : Port) (f : PortCounters → PortCounters) :
    ((s.onPort p fun u => { u with tx := .idle }).onCount p f).ports = s.ports.set p ((s.ports.get p).sent f) := by
  cases p <;> rfl

theorem endData_ports (s : State) (p : Port) (d : Descriptor) : (s.endData p d).ports =
    s.ports.set p ((s.ports.get p).sent fun k => { k with txFrames := k.txFrames + 1 }) := by
  rw [← sent_ports]
  unfold State.endData
  dsimp only
  split <;> rfl

/-- What the end of a data frame does beside its port. -/
theorem endData_rest (s : State) (p : Port) (d : Descriptor) : (s.endData p d).store = s.store.release d.frame ∧
    (s.endData p d).cfg = s.cfg ∧ (s.endData p d).own = s.own ∧ (s.endData p d).aux.choiceDue.get p = true ∧
    (s.endData p d).classifier.records =
      if (streamEntry s.cfg.active d.stream).isSome = true then
        updateRecord d.stream (fun r => { r with forwarded := r.forwarded + 1 }) s.classifier.records
      else s.classifier.records := by
  unfold State.endData
  dsimp only
  split <;> exact ⟨rfl, rfl, rfl, prompt_choiceDue .., rfl⟩

theorem streamEntry_isSome {c : Configuration} {n : StreamNo} : (streamEntry c n).isSome = true ↔ ∃ e ∈ c.streams, e.stream = n := by
  simp [streamEntry]

/-! ### SYNC_TX_END and OWN_TX_END -/

theorem exec_syncTxEnd {s : State} {p : Port} {source : Byte} {number : Word} {len occ rem : Nat} (hr : s.resetHeld = false)
    (ht : (s.ports.get p).tx = .busy (.sync source number len) occ rem) :
    exec (.syncTxEnd p) s = .next (settle ((((s.advance rem).onPort p fun u => { u with tx := .idle }).onCount p
      fun k => { k with syncSent := k.syncSent + 1 }).prompt p)) := by
  simp only [Machine.exec, execSyncTxEnd]
  rw [taken_running hr, ht]

theorem exec_ownTxEnd {s : State} {f : OwnFrame} {occ rem : Nat} (hr : s.resetHeld = false)
    (ht : s.ports.t.tx = .busy (.own f) occ rem) : exec .ownTxEnd s =
      .next (settle (if f.restartMark = true then ((s.advance rem).onPort .t fun u => { u with tx := .idle }).warmRestart
        else (((s.advance rem).onPort .t fun u => { u with tx := .idle }).offerSlot.prompt .t))) := by
  simp only [Machine.exec, execOwnTxEnd]
  rw [taken_running hr, ht]

/-- A warm restart takes every transmitter as it is (R146). -/
theorem warmRestart_onPort_tx (s : State) :
    (s.onPort .t fun u => { u with tx := .idle }).warmRestart = s.warmRestart := rfl

theorem advance_sent {s : State} {n : Nat} {p q : Port} {f : PortCounters → PortCounters} {t : State}
    (h : t.ports = (s.advance n).ports.set p (((s.advance n).ports.get p).sent f)) :
    (t.ports.get p).tx = .idle ∧ (t.ports.get p).count = f (s.ports.get p).count ∧ (t.ports.get q).queues = (s.ports.get q).queues := by
  have hself : t.ports.get p = ((s.advance n).ports.get p).sent f := by rw [h, PerPort.get_set, if_pos rfl]
  refine ⟨congrArg PortUnit.tx hself, (congrArg PortUnit.count hself).trans (congrArg f (advance_count ..)), ?_⟩
  rw [h, PerPort.get_set]
  split
  · next hq =>
    rw [hq]
    exact advance_queues ..
  · exact advance_queues ..

/-- The end of an own frame frees one slot. -/
theorem slotsTaken_sent {s : State} {n : Nat} {f : OwnFrame} {occ rem : Nat} (ht : s.ports.t.tx = .busy (.own f) occ rem) :
    ((s.advance n).onPort .t fun u => { u with tx := .idle }).slotsTaken + 1 = s.slotsTaken := by
  rw [slotsTaken_eq, slotsTaken_eq, ht]
  rfl

/-- Settles O26. -/
theorem transmissionEndsNormally : Obligations.TransmissionEndsNormally := by
  refine fun s p occ rem hr => ⟨fun d ht => ?_, fun source number len ht => ?_, fun f ht => ?_⟩
  · obtain ⟨hstore, hcfg, hown, hdue, hrecords⟩ := endData_rest (s.advance rem) p d
    have hports := endData_ports (s.advance rem) p d
    obtain ⟨htx, hcount, -⟩ := advance_sent (q := p) hports
    refine ⟨_, exec_dataTxEnd hr ht, htx, hcount, hstore, hdue, hrecords.trans (if_congr streamEntry_isSome rfl rfl),
      fun q => (advance_sent (q := q) hports).2.2, hcfg, hown⟩
  · have hports := sent_ports (s.advance rem) p fun k => { k with syncSent := k.syncSent + 1 }
    obtain ⟨htx, hcount, -⟩ := advance_sent (q := p) hports
    exact ⟨_, exec_syncTxEnd hr ht, htx, hcount, rfl, prompt_choiceDue .., rfl, fun q => (advance_sent (q := q) hports).2.2, rfl, rfl⟩
  · have hexec := exec_ownTxEnd hr ht
    by_cases hm : f.restartMark = true
    · rw [if_pos hm, warmRestart_onPort_tx] at hexec
      exact ⟨_, hexec, rfl, fun h => absurd (h ▸ hm) Bool.false_ne_true, fun _ => rfl⟩
    · rw [if_neg hm] at hexec
      have hports := sent_ports (s.advance rem) .t id
      obtain ⟨htx, hcount, -⟩ := advance_sent (q := .t) hports
      have hslots := slotsTaken_sent (n := rem) ht
      obtain ⟨hreport, -, hsettled⟩ := settle_of_freed
        (s := ((s.advance rem).onPort .t fun u => { u with tx := .idle }).offerSlot.prompt .t) rfl
      exact ⟨_, hexec, htx, fun _ => ⟨hcount, rfl, rfl, prompt_choiceDue _ .t, hslots, by rw [hsettled]; exact hslots, hreport,
        fun q => (advance_sent (q := q) hports).2.2, rfl⟩, fun h => absurd h hm⟩

end Sys2Proof.Machine
end

section
/-! A link loss (R72, R76, R80, R117, R122, R128) and the warm restart it may bring (R145). -/

namespace Sys2Proof.Machine

open Sys2Proof

/-- A port after a link loss has taken its reception, its transmission and its queues, with what the queues lost. -/
def PortUnit.lost (u : PortUnit) (flushed : Nat) : PortUnit :=
  { u with
    rx := .rest, tx := .idle, queues := Quad.fill []
    count := { u.count with
      rxCheck := u.count.rxCheck + if u.rx.state = .idle ∨ u.rx.state = .dropped then 0 else 1
      txAborted := u.count.txAborted + if u.tx = .idle then 0 else 1
      txFlushed := u.count.txFlushed + BitVec.ofNat 32 flushed } }

/-! ### Each part of the loss -/

section
variable (s : State) (p : Port)

theorem loseReception_rest : (s.loseReception p).own = s.own ∧ (s.loseReception p).control = (if p = .t then none else s.control) ∧
    (s.loseReception p).events = s.events ∧ (s.loseReception p).classifier = s.classifier := by
  unfold State.loseReception State.abandon
  dsimp only
  split <;> split <;> exact ⟨rfl, rfl, rfl, rfl⟩

theorem loseTransmission_rest : (s.loseTransmission p).own = s.own ∧ (s.loseTransmission p).control = s.control ∧
    (s.loseTransmission p).events = s.events ∧ (s.loseTransmission p).classifier = s.classifier := by
  unfold State.loseTransmission State.cutOff
  dsimp only
  split
  · exact ⟨rfl, rfl, rfl, rfl⟩
  · split <;> exact ⟨rfl, rfl, rfl, rfl⟩

theorem foldl_release_rest (ds : List Descriptor) (t : State) : (ds.foldl (fun t d => t.release d) t).own = t.own ∧
    (ds.foldl (fun t d => t.release d) t).control = t.control ∧ (ds.foldl (fun t d => t.release d) t).events = t.events ∧
    (ds.foldl (fun t d => t.release d) t).classifier = t.classifier := by
  induction ds generalizing t with
  | nil => exact ⟨rfl, rfl, rfl, rfl⟩
  | cons d ds ih => exact ih _

theorem loseQueues_rest : (s.loseQueues p).own = (if p = .t then [] else s.own) ∧ (s.loseQueues p).control = s.control ∧
    (s.loseQueues p).events = s.events ∧ (s.loseQueues p).classifier = s.classifier := by
  obtain ⟨hown, hcontrol, hevents, hclassifier⟩ : (s.flushQueues p).own = s.own ∧ (s.flushQueues p).control = s.control ∧
      (s.flushQueues p).events = s.events ∧ (s.flushQueues p).classifier = s.classifier := foldl_release_rest ..
  unfold State.loseQueues
  dsimp only
  split
  · exact ⟨rfl, hcontrol, hevents, hclassifier⟩
  · exact ⟨hown, hcontrol, hevents, hclassifier⟩

/-- The state when the port has lost its reception, its transmission and its queues. -/
def State.portLost : State := ((s.loseReception p).loseTransmission p).loseQueues p

theorem portLost_kept : Kept s (s.portLost p) :=
  ((loseReception_kept s p).trans (loseTransmission_kept _ p)).trans (loseQueues_kept _ p)

theorem portLost_ports : (s.portLost p).ports = s.ports.set p ((s.ports.get p).lost (s.flushedByLoss p)) := by
  have hflushed : ((s.loseReception p).loseTransmission p).flushedByLoss p = s.flushedByLoss p := by
    rw [State.flushedByLoss, (loseTransmission_rest ..).1, (loseReception_rest ..).1, loseTransmission_ports, loseReception_ports]
    simp only [PerPort.get_set, if_true]
    rfl
  rw [State.portLost, loseQueues_ports, hflushed, loseTransmission_ports, loseReception_ports]
  simp only [PerPort.get_set, if_true, PerPort.set_set]
  rfl

theorem portLost_rest : (s.portLost p).own = (if p = .t then [] else s.own) ∧
    (s.portLost p).control = (if p = .t then none else s.control) ∧ (s.portLost p).events = s.events ∧
    (s.portLost p).classifier = s.classifier := by
  obtain ⟨rown, rcontrol, revents, rclassifier⟩ := loseReception_rest s p
  obtain ⟨town, tcontrol, tevents, tclassifier⟩ := loseTransmission_rest (s.loseReception p) p
  obtain ⟨qown, qcontrol, qevents, qclassifier⟩ := loseQueues_rest ((s.loseReception p).loseTransmission p) p
  exact ⟨qown.trans (by rw [town, rown]), qcontrol.trans (tcontrol.trans rcontrol), qevents.trans (tevents.trans revents),
    qclassifier.trans (tclassifier.trans rclassifier)⟩

/-! ### The drain in progress -/

/-- The port once its link is DOWN and a drain in progress is finished. -/
def PortUnit.down (u : PortUnit) (flushed : Nat) : PortUnit :=
  { u.lost flushed with
    link := false
    admin := if u.admin = .draining then .drained else u.admin
    drain := if u.admin = .draining then none else u.drain }

/-- A drain in progress is finished with reason LINK (R128); nothing else of the gate changes. -/
theorem finishDrainByLink_spec (n : Nat) : (s.finishDrainByLink p n).ports = s.ports.set p
      { s.ports.get p with
        admin := if (s.ports.get p).admin = .draining then .drained else (s.ports.get p).admin
        drain := if (s.ports.get p).admin = .draining then none else (s.ports.get p).drain } ∧
    (s.finishDrainByLink p n).own = s.own ∧ (s.finishDrainByLink p n).control = s.control ∧
    (s.finishDrainByLink p n).classifier = s.classifier ∧
    (s.finishDrainByLink p n).events =
      if (s.ports.get p).admin = .draining then
        s.events.raise .drainDone (some p) none s.clock.number
          (drainDetail true ((((s.ports.get p).drain).map (·.flushed)).getD 0 + n))
      else s.events := by
  unfold State.finishDrainByLink
  dsimp only
  split
  · exact ⟨rfl, rfl, rfl, rfl, rfl⟩
  · exact ⟨(PerPort.set_get ..).symm, rfl, rfl, rfl, rfl⟩

/-- The state of a link loss before a drain in progress is finished: the link is DOWN and LINK_CHANGE raised (R122). -/
def State.linkDown : State := ((s.portLost p).onPort p fun u => { u with link := false }).raise .linkChange (some p) none 0

theorem linkDown_spec :
    (s.linkDown p).ports = s.ports.set p { (s.ports.get p).lost (s.flushedByLoss p) with link := false } ∧
    (s.linkDown p).own = (if p = .t then [] else s.own) ∧ (s.linkDown p).control = (if p = .t then none else s.control) ∧
    (s.linkDown p).classifier = s.classifier ∧ (s.linkDown p).clock = s.clock ∧
    (s.linkDown p).events = s.events.raise .linkChange (some p) none s.clock.number 0 := by
  obtain ⟨hown, hcontrol, hevents, hclassifier⟩ := portLost_rest s p
  have hclock := (portLost_kept s p).clock
  have hports := portLost_ports s p
  unfold State.linkDown
  generalize s.portLost p = t at *
  refine ⟨?_, hown, hcontrol, hclassifier, hclock, ?_⟩
  · refine Eq.trans (b := t.ports.set p { t.ports.get p with link := false }) rfl ?_
    rw [hports, PerPort.get_set, if_pos rfl, PerPort.set_set]
  · rw [← hevents, ← hclock]
    rfl

/-- A link loss: its port, the own queue and control buffer of T, and its notices (R122, R128). -/
theorem loseLink_spec : (s.loseLink p).ports = s.ports.set p ((s.ports.get p).down (s.flushedByLoss p)) ∧
    (s.loseLink p).own = (if p = .t then [] else s.own) ∧ (s.loseLink p).control = (if p = .t then none else s.control) ∧
    (s.loseLink p).classifier = s.classifier ∧
    (s.loseLink p).events =
      if (s.ports.get p).admin = .draining then
        (s.events.raise .linkChange (some p) none s.clock.number 0).raise .drainDone (some p) none s.clock.number
          (drainDetail true ((((s.ports.get p).drain).map (·.flushed)).getD 0 + (s.ports.get p).queued))
      else s.events.raise .linkChange (some p) none s.clock.number 0 := by
  obtain ⟨hports, hown, hcontrol, hclassifier, hclock, hevents⟩ := linkDown_spec s p
  obtain ⟨dports, down, dcontrol, dclassifier, devents⟩ := finishDrainByLink_spec (s.linkDown p) p (s.ports.get p).queued
  have heq : s.loseLink p = (s.linkDown p).finishDrainByLink p (s.ports.get p).queued := rfl
  have hself : (s.linkDown p).ports.get p = { (s.ports.get p).lost (s.flushedByLoss p) with link := false } := by
    rw [hports, PerPort.get_set, if_pos rfl]
  rw [hself, hports, PerPort.set_set] at dports
  rw [hself, hevents, hclock] at devents
  rw [heq]
  exact ⟨dports, down.trans hown, dcontrol.trans hcontrol, dclassifier.trans hclassifier, devents⟩

end

/-! ### LINK_LOSS -/

theorem exec_linkLoss {s : State} {p : Port} (hr : s.resetHeld = false) (hl : (s.ports.get p).link = true)
    (h : p = .t → s.restartResponseOut = false) : exec (.linkLoss p) s = .next (settle (s.loseLink p)) := by
  simp only [Machine.exec, execLinkLoss]
  rw [taken_running hr, if_pos hl, if_neg fun ⟨hp, hout⟩ => Bool.false_ne_true ((h hp).symm.trans hout)]

theorem exec_linkLoss_restart {s : State} (hr : s.resetHeld = false) (hl : (s.ports.get .t).link = true) (h : s.restartResponseOut = true) :
    exec (.linkLoss .t) s = .next (settle (s.loseLink .t).warmRestart) := by
  simp only [Machine.exec, execLinkLoss]
  rw [taken_running hr, if_pos hl, if_pos ⟨trivial, h⟩]

theorem restartResponseOut_iff {s : State} : s.restartResponseOut = true ↔
    s.own.any (·.restartMark) = true ∨ ∃ f occ rem, s.ports.t.tx = .busy (.own f) occ rem ∧ f.restartMark = true := by
  rw [State.restartResponseOut, Bool.or_eq_true]
  refine or_congr_right ?_
  cases s.ports.t.tx with
  | idle => simp [Transmitter.carriesRestart]
  | busy f occ rem => cases f <;> simp [Transmitter.carriesRestart]

/-- Settles O27: the loss in closed form (`loseLink_spec`), and the restart it brings (`settle_warmRestart`). -/
theorem linkLossTakesThePortDown : Obligations.LinkLossTakesThePortDown := by
  refine ⟨fun s p v hr hv hl hout => ?_, fun s hr hl hout => ?_⟩
  · subst hv
    obtain ⟨hports, hown, hcontrol, hclassifier, hevents⟩ := loseLink_spec s p
    have hkept := loseLink_kept s p
    have hself : (s.loseLink p).ports.get p = (s.ports.get p).down (s.flushedByLoss p) := by rw [hports, PerPort.get_set, if_pos rfl]
    refine ⟨s.loseLink p, exec_linkLoss hr hl hout, ?_, fun q hq => by rw [hports, PerPort.get_set, if_neg hq], hkept.cfg, hkept.sync,
      hclassifier⟩
    dsimp only
    rw [hself, hown, hcontrol, hevents]
    refine ⟨rfl, rfl, rfl, fun c => Quad.get_fill .., rfl, rfl, rfl, fun hp => if_pos hp, ?_⟩
    split
    · next h => rw [h]
    · next h =>
      cases ha : (s.ports.get p).admin with
      | draining => exact absurd ha h
      | opened => rfl
      | drained => rfl
  · obtain ⟨hports, -⟩ := loseLink_spec s .t
    have hkept := loseLink_kept s .t
    obtain ⟨hmgmt, hown, hclock, hcfg⟩ := settle_warmRestart (s.loseLink .t)
    refine ⟨s.loseLink .t, settle (s.loseLink .t).warmRestart, congrArg (fun x => x.t.link) hports,
      exec_linkLoss_restart hr hl (restartResponseOut_iff.2 hout), rfl, by rw [hmgmt], fun i => by rw [hmgmt, Quad.get_fill], hown, ?_, ?_,
      hclock.trans hkept.clock⟩
    · rw [hcfg, hkept.cfg]
      rfl
    · rw [hcfg, hkept.cfg]
      rfl

end Sys2Proof.Machine
end

section
/-! WARM_RESTART (R82, R118, R145 to R147): the state a restart leaves is at rest, so the steps that follow change nothing of it; and the
request frame that it cut off. -/

namespace Sys2Proof.Machine

open Sys2Proof

/-! ### A gate at rest -/

/-- Nothing for the steps that follow a command to do: nothing queued, no drain in progress, no sink, no lost notice. -/
structure State.AtRest (s : State) : Prop where
  own : s.own = []
  queues : ∀ p c, (s.ports.get p).queues.get c = []
  admin : ∀ p, (s.ports.get p).admin ≠ .draining
  sink : s.events.sink = none
  overflow : s.events.overflowSet = []

theorem State.AtRest.setAux {s : State} (h : s.AtRest) (a : Aux) : (s.setAux a).AtRest := ⟨h.1, h.2, h.3, h.4, h.5⟩

theorem tryClasses_empty {s : State} {p : Port} (h : ∀ c, (s.ports.get p).queues.get c = []) (fits : Nat → Bool) (cs : List (Fin 4)) :
    s.tryClasses fits p cs = s := by
  induction cs with
  | nil => rfl
  | cons c cs ih =>
    have hspent : s.Spent fits p c := fun d behind hq => by rw [h c] at hq; cases hq
    rw [tryClasses_cons_of_spent hspent, ih]

/-- With nothing queued a choice starts nothing. -/
theorem choose_atRest {s : State} (h : s.AtRest) (p : Port) : s.choose p = s := by
  by_cases hc : (s.ports.get p).tx = .idle ∧ (s.ports.get p).link = true
  · obtain ⟨-, -, heq⟩ | ⟨fits, own, cs, -, heq⟩ := choose_cases hc.1 hc.2
    · exact heq
    · rw [heq, serve_classes fun _ f rest hf => by rw [h.own] at hf; cases hf]
      exact tryClasses_empty (h.queues p) fits cs
  · exact choose_of_busy hc

/-- Two states differ in their book-keeping alone, and agree on the request that a restart cut off. -/
def State.SameBut (s t : State) : Prop := ∃ a, t = s.setAux a ∧ a.cutRequest = s.aux.cutRequest

theorem State.SameBut.refl (s : State) : s.SameBut s := ⟨s.aux, rfl, rfl⟩

theorem State.SameBut.trans {s t u : State} (h : s.SameBut t) (k : t.SameBut u) : s.SameBut u := by
  obtain ⟨a, rfl, ha⟩ := h
  obtain ⟨b, rfl, hb⟩ := k
  exact ⟨b, rfl, hb.trans ha⟩

theorem State.SameBut.atRest {s t : State} (h : s.SameBut t) (hs : s.AtRest) : t.AtRest := by
  obtain ⟨a, rfl, -⟩ := h
  exact hs.setAux a

theorem chooseIfDue_atRest {s : State} (h : s.AtRest) (p : Port) : s.SameBut (s.chooseIfDue p) := by
  cases hd : s.aux.choiceDue.get p with
  | false =>
    rw [chooseIfDue_of_not_due hd]
    exact .refl s
  | true =>
    rw [chooseIfDue_of_due hd, choose_atRest (s := s.asked p) (h.setAux _)]
    exact ⟨_, rfl, rfl⟩

theorem makeChoices_atRest {s : State} (h : s.AtRest) : s.SameBut s.makeChoices := by
  have hfold (l : List Port) : s.SameBut (l.foldl State.chooseIfDue s) := by
    induction l using List.reverseRecOn with
    | nil => exact .refl s
    | append_singleton l p ih =>
      rw [List.foldl_append]
      exact ih.trans (chooseIfDue_atRest (ih.atRest h) p)
  exact hfold Port.all

theorem completeDrains_atRest {s : State} (h : s.AtRest) : s.completeDrains = s := by
  have hone (p : Port) : s.completeDrain p = s := if_neg fun hc => h.admin p hc.1
  unfold State.completeDrains
  simp only [Port.branches, List.foldl_cons, List.foldl_nil, hone]

theorem eventWork_atRest {s : State} (h : s.AtRest) : s.SameBut s.eventWork := by
  have hoverflow : s.queueOverflow = s := by
    rw [State.queueOverflow, EventUnit.queueOverflow, if_neg fun hc => hc.1 h.overflow]
    rfl
  have hretransmit : s.retransmit = s := retransmit_not_ready s (by rw [State.retransmitReady, h.sink]; rfl)
  have hreport : s.buildReport = s := buildReport_not_ready s (by rw [State.reportReady, h.sink]; rfl)
  unfold State.eventWork
  split
  · rw [hoverflow]
    exact ⟨_, rfl, rfl⟩
  · rw [hoverflow, hretransmit, hreport]
    exact .refl s

/-- The steps that follow a command leave a gate at rest as it is. -/
theorem settle_atRest {s : State} (h : s.AtRest) : s.SameBut (settle s) := by
  have hchoices := makeChoices_atRest h
  have hrest := hchoices.atRest h
  have hwork := eventWork_atRest hrest
  rw [settle, completeDrains_atRest hrest]
  exact (hchoices.trans hwork).trans (makeChoices_atRest (hwork.atRest hrest))

/-! ### The restart -/

theorem warmRestart_port (s : State) (p : Port) : s.warmRestart.ports.get p = (s.ports.get p).warm := PerPort.get_map ..

theorem warmRestart_atRest (s : State) : s.warmRestart.AtRest where
  own := rfl
  queues p c := by
    rw [warmRestart_port]
    exact Quad.get_fill ..
  admin p := by
    rw [warmRestart_port]
    exact Admin.noConfusion
  sink := rfl
  overflow := rfl

theorem exec_warmRestart {s : State} (hr : s.resetHeld = false) (hp : s.mgmt.restartPending = true) :
    exec .warmRestart s = .next (settle s.warmRestart) := by
  simp only [Machine.exec, execWarmRestart]
  rw [taken_running hr, if_pos hp]

theorem restartCuts_request {s : State} {h : Header} {c : ControlFrame} (hx : s.ports.t.rx.state = .control)
    (hh : s.ports.t.rx.header = some h) (hc : s.control = some c) (hk : c.kind = 0x03) :
    s.restartCuts = some ⟨s.clock.elapsed, h, s.ports.t.rx.bytes, s.ports.t.rx.check, c⟩ := by
  unfold State.restartCuts
  rw [hx, hh, hc]
  exact if_pos hk

/-- The end of a frame at an idle receiver. -/
theorem exec_frameEnd_idle {s : State} {p : Port} (hr : s.resetHeld = false) (hx : (s.ports.get p).rx.state = .idle) (rest : List Byte) :
    exec (.frameEnd p rest) s = .next (settle (s.endCut p rest)) := by
  simp only [Machine.exec, execFrameEnd]
  rw [taken_running hr, hx]

theorem endCut_delivered {s : State} {x : CutRequest} {rest : List Byte} (hx : s.aux.cutRequest = some x) (hl : s.ports.t.link = true)
    (he : x.elapsed = s.clock.elapsed) (hb : 10 + rest.length ≤ x.bytes) (hpass : endFailure x.header x.check none rest = none) :
    s.endCut .t rest = (s.setAux { s.aux with cutRequest := none }).deliverControl
      { x.frame with payload := (rest.take (rest.length - 4)).take controlPayload } := by
  rw [State.endCut, hx]
  exact if_pos ⟨rfl, hl, he, hb, hpass⟩

/-- Settles O29: the restarted gate is at rest (`settle_atRest`), and the request that it cut off is delivered (`endCut_delivered`). -/
theorem warmRestartResetsEveryBlock : Obligations.WarmRestartResetsEveryBlock := by
  refine ⟨fun s hr hp => ?_, fun s h c payload check hr hp hl hx hh hc hk h0 h255 hlen hcheck hbytes => ?_⟩
  · obtain ⟨a, ha, -⟩ := settle_atRest (warmRestart_atRest s)
    refine ⟨_, exec_warmRestart hr hp, ?_⟩
    rw [ha]
    exact ⟨rfl, rfl, rfl, rfl, rfl, rfl, rfl, rfl, rfl, rfl, fun i => Quad.get_fill .., rfl, rfl,
      fun p => ⟨PerPort.get_fill .., warmRestart_port s p⟩⟩
  · obtain ⟨a, ha, hcut⟩ := settle_atRest (warmRestart_atRest s)
    refine ⟨_, s.warmRestart.setAux { a with cutRequest := none }, exec_warmRestart hr hp, ?_, fun i => Quad.get_fill .., ?_⟩
    · rw [ha]
      rfl
    · have hfour : (payload ++ check).length - 4 = payload.length := by
        rw [List.length_append, hcheck, be32_length, Nat.add_sub_cancel]
      have hsync : c.kind ≠ kindSync := by rw [hk]; decide
      have hcutRequest : a.cutRequest = some ⟨s.clock.elapsed, h, s.ports.t.rx.bytes, s.ports.t.rx.check, c⟩ :=
        hcut.trans (restartCuts_request hx hh hc hk)
      have hb : 10 + (payload ++ check).length ≤ s.ports.t.rx.bytes := by
        rw [hbytes, List.length_append, hcheck, be32_length, Nat.add_assoc]
      rw [ha, exec_frameEnd_idle (s := s.warmRestart.setAux a) (p := .t) hr rfl,
        endCut_delivered (s := s.warmRestart.setAux a) hcutRequest hl rfl hb (endFailure_of_right hcheck hlen (by simp)), hfour,
        List.take_left, 
        deliverControl_request (x := { c with payload := payload.take controlPayload }) hsync (not_or.2 ⟨h0, h255⟩)]
      rfl

end Sys2Proof.Machine
end

section
/-! A step, the passage of a byte time, and reset (R83, R135, R136, R157, R162 to R164). -/

namespace Sys2Proof.Machine

open Sys2Proof

/-- Settles O1. -/
theorem stepRunsFrontCommand : Obligations.StepRunsFrontCommand := by
  intro s c cs h
  rw [step, h]

/-! ### With no command waiting -/

theorem step_idle {s : State} (h : s.pending = []) : step s = .next (idleStep s) := by
  rw [step, h]

theorem idleStep_reset {s : State} (h : s.resetHeld = true) : idleStep s = s := if_pos h

theorem idleStep_due {s : State} (hr : s.resetHeld = false) (hd : s.dueEvents ≠ []) : idleStep s = { s with pending := s.dueEvents } := by
  obtain ⟨c, cs, h⟩ := List.exists_cons_of_ne_nil hd
  rw [idleStep, if_neg (by simp [hr]), h]

theorem idleStep_advance {s : State} (hr : s.resetHeld = false) (hd : s.dueEvents = []) :
    idleStep s = { s.advance 1 with pending := (s.advance 1).dueEvents ++ (s.advance 1).reachedEvents } := by
  rw [idleStep, if_neg (by simp [hr]), hd]

/-- A tick falls in one byte time exactly where it completes a millisecond (R135). -/
theorem ticksBetween_one (n : Nat) : ticksBetween n (n + 1) = if (n + 1) % 12500 = 0 then 1 else 0 := by
  unfold ticksBetween Config.msByteTimes
  split <;> omega

theorem advance_events (s : State) (n : Nat) : (s.advance n).events =
    { s.events with timer := s.events.timer.map fun t => t - ticksBetween s.clock.elapsed (s.clock.elapsed + n) } := rfl

theorem advance_slot (s : State) (n : Nat) (i : Fin 4) : (s.advance n).mgmt.slots.get i =
    (s.mgmt.slots.get i).map fun y => { y with remaining := y.remaining - ticksBetween s.clock.elapsed (s.clock.elapsed + n) } :=
  Quad.get_map ..

/-- Settles O2: a byte time is an advance by one (`advance_port`, `advance_slot`). -/
theorem emptyQueueStepLetsAByteTimePass : Obligations.EmptyQueueStepLetsAByteTimePass := by
  refine fun s h => ⟨fun hr => ?_, fun hr hd => ?_, fun hr hd => ⟨_, step_idle h, ?_⟩⟩
  · rw [step_idle h, idleStep_reset hr]
  · rw [step_idle h, idleStep_due hr hd]
  · rw [idleStep_advance hr hd, ← ticksBetween_one]
    refine ⟨rfl, rfl, rfl, rfl, ⟨rfl, fun i => advance_slot s 1 i⟩, rfl, rfl, rfl, rfl, rfl, rfl, rfl, rfl, fun p => ?_⟩
    have hport : ({ s.advance 1 with pending := (s.advance 1).dueEvents ++ (s.advance 1).reachedEvents } : State).ports.get p =
        (s.ports.get p).elapse 1 := advance_port s 1 p
    rw [hport]
    refine ⟨rfl, rfl, rfl, rfl, fun f occ left ht => ?_, fun ht => ?_, rfl⟩
    · rw [PortUnit.elapse, ht]
      rfl
    · rw [PortUnit.elapse, ht]
      rfl

/-! ### Reset -/

theorem abandon_cutOff_port (s : State) (p q : Port) : ((s.abandon p).cutOff p).ports.get q =
    if q = p then { s.ports.get q with rx := .rest, tx := .idle } else s.ports.get q := by
  rw [(cutOff_rest ..).1, (abandon_rest ..).1, PerPort.get_set, PerPort.get_set, PerPort.get_set, if_pos rfl]
  split
  · next h => rw [h]
  · rfl

/-- When the ports of a list have been taken down, each of them neither receives nor sends. -/
theorem foldl_cutOff_quiet (ps : List Port) (s : State) (p : Port) (hp : p ∈ ps) :
    (((ps.foldl (fun t q => (t.abandon q).cutOff q) s).ports.get p).rx = .rest) ∧
    (((ps.foldl (fun t q => (t.abandon q).cutOff q) s).ports.get p).tx = .idle) := by
  induction ps using List.reverseRecOn with
  | nil => cases hp
  | append_singleton ps q ih =>
    rw [List.foldl_append, List.foldl_cons, List.foldl_nil, abandon_cutOff_port]
    split
    · exact ⟨rfl, rfl⟩
    · next hne => exact ih ((List.mem_append.1 hp).resolve_right fun h => hne (List.mem_singleton.1 h))

theorem powerOn_port (straps : Byte) (high : Bool) (links : PerPort Bool) (waiting : List Instr) (p : Port) :
    (State.powerOn straps high links waiting).ports.get p = .powerOn (links.get p) := PerPort.get_map ..

/-- Settles O4: the release answers `State.powerOn`, and in reset no other command is taken (`exec_taken`). -/
theorem resetHoldsAndReleases : Obligations.ResetHoldsAndReleases := by
  refine ⟨fun s => ⟨⟨_, rfl, rfl, rfl, fun p => foldl_cutOff_quiet _ s p (Port.mem_all p)⟩, fun hr => ⟨fun c ha hl => ?_, fun h => ?_⟩⟩,
    fun s straps high links => ⟨_, rfl, rfl, rfl, rfl, rfl, rfl, rfl, rfl, rfl, rfl, rfl, rfl, rfl, rfl, rfl, rfl, rfl, rfl, rfl, rfl,
      rfl, rfl, rfl, rfl, rfl, rfl, fun i => Quad.get_fill .., rfl, rfl, fun p => ?_⟩⟩
  · obtain ⟨f, hf⟩ := exec_taken c s ha hl
    rw [hf, taken, if_pos hr]
  · rw [step_idle h, idleStep_reset hr]
  · rw [powerOn_port]
    exact ⟨rfl, rfl, rfl, rfl, rfl, fun c => Quad.get_fill .., rfl, PerPort.get_fill ..⟩

/-- What holds of a port at power-on holds of every port right after a release. -/
theorem PortsClosed.powerOn_meets {Q : Port → PortUnit → Prop} (hQ : PortsClosed Q) (straps : Byte) (high : Bool) (links : PerPort Bool)
    (waiting : List Instr) : (State.powerOn straps high links waiting).PortsMeet Q := fun p => by
  rw [powerOn_port]
  exact hQ.powerOn p _

/-- Settles O5: every condition is one that a release meets. -/
theorem powerOnMeetsEveryInvariant : Obligations.PowerOnMeetsEveryInvariant := by
  rintro straps high links waiting s rfl
  have hconfig := configInv_closed.powerOn straps high links waiting
  refine ⟨lockInv_closed.powerOn .., syncInv_closed.powerOn .., sessionInv_closed.powerOn .., stagedInv_closed.powerOn straps high links waiting, hconfig, ?pool,
    queueInv_iff.2 ⟨queuesOk_closed.powerOn_meets straps high links waiting, Nat.zero_le _, queueRoom_closed.powerOn⟩, eventsInv_closed.powerOn, ?references,
    drainInv_iff.2 ⟨drainOk_closed.powerOn_meets straps high links waiting, fun _ p _ => ?drains⟩, linkInv_iff.2 (linkOk_closed.powerOn_meets straps high links waiting),
    (recordInv_iff hconfig.1).2 ⟨List.nodup_nil, rfl, fun _ hr => nomatch hr⟩⟩
  case pool =>
    refine poolHolds_empty (s := State.powerOn straps high links waiting) rfl fun p => ?_
    rw [powerOn_port]
    rfl
  case references =>
    refine refInv_iff.2 (refsHold_empty (s := State.powerOn straps high links waiting) rfl fun p => ?_)
    rw [powerOn_port]
    rfl
  case drains =>
    rw [powerOn_port]
    exact fun h => nomatch h

end Sys2Proof.Machine
end

section
/-! A natural cycle start as a command (R84, R99), the swap it takes (R54), and the expiries it leaves (R73). -/

namespace Sys2Proof.Machine

open Sys2Proof

theorem exec_naturalCycleStart {s : State} (hr : s.resetHeld = false) :
    exec .naturalCycleStart s = .next (settle (s.runTo s.clock.cycleEnd).cycleStart) := by
  simp only [Machine.exec, execNaturalCycleStart]
  rw [taken_running hr]

/-- With a swap due at the next number, SWAP is the natural cycle start (log entry 15). -/
theorem exec_swap_due {s : State} (hr : s.resetHeld = false) (hd : swapDue s.cfg (s.clock.number + 1) = true) :
    exec .swap s = .next (settle (s.runTo s.clock.cycleEnd).cycleStart) := by
  simp only [Machine.exec, execSwap]
  rw [taken_running hr, if_pos hd]

/-- What the run of the timer leaves alone. -/
theorem runTo_rest (s : State) (v : Nat) : (s.runTo v).cfg = s.cfg ∧ (s.runTo v).sync = s.sync ∧ (s.runTo v).trunkCount = s.trunkCount ∧
    (s.runTo v).straps = s.straps ∧ (s.runTo v).mgmt.restartPending = s.mgmt.restartPending ∧
    (s.runTo v).clock.number = s.clock.number ∧ (s.runTo v).clock.cycleEnd = s.clock.cycleEnd ∧ (s.runTo v).aux = s.aux ∧
    (s.runTo v).own = s.own ∧ (s.runTo v).store = s.store ∧ (s.runTo v).classifier = s.classifier :=
  ⟨rfl, rfl, rfl, rfl, rfl, rfl, rfl, rfl, rfl, rfl, rfl⟩

theorem swapDue_iff {c : ConfigUnit} {n : Word} :
    swapDue c n = true ↔ ∃ target, c.armed = some target ∧ ¬earlier n target = true := by
  unfold swapDue
  cases c.armed with
  | none => simp
  | some target => simp

/-! ### The turn of the cycle -/

theorem settled_cycleStart (s : State) :
    (settle (s.runTo s.clock.cycleEnd).cycleStart).clock.timer = 0 ∧
    (settle (s.runTo s.clock.cycleEnd).cycleStart).clock.number = s.clock.number + 1 ∧
    (settle (s.runTo s.clock.cycleEnd).cycleStart).clock.cycleEnd = (cycleConfig s.cfg (s.clock.number + 1)).params.cycleLength ∧
    (settle (s.runTo s.clock.cycleEnd).cycleStart).cfg = s.cfg.atStart (s.clock.number + 1) ∧
    (settle (s.runTo s.clock.cycleEnd).cycleStart).sync = { s.sync with accepted := false, mismatchMark := none } ∧
    (settle (s.runTo s.clock.cycleEnd).cycleStart).lock = (settle (s.runTo s.clock.cycleEnd).cycleStart).enforcing := by
  have hk := settle_kept (s.runTo s.clock.cycleEnd).cycleStart
  obtain ⟨-, -, -, -, -, hcfg, hsync, hclock, hlock⟩ := cycleStart_timing (s.runTo s.clock.cycleEnd)
  rw [hk.clock, hk.cfg, hk.sync, hk.lock, hk.enforcing, hclock, hcfg, hsync]
  exact ⟨rfl, rfl, rfl, rfl, rfl, hlock⟩

/-- Settles O6, from the gate-wide state after a cycle start (`cycleStart_timing`), which the follow-on steps keep. -/
theorem naturalCycleStartTurnsTheCycle : Obligations.NaturalCycleStartTurnsTheCycle := by
  intro s hr
  obtain ⟨htimer, hnumber, hend, hcfg, hsync, hlock⟩ := settled_cycleStart s
  have hk := settle_kept (s.runTo s.clock.cycleEnd).cycleStart
  obtain ⟨-, hstraps, hmgmt, -, htrunk, -⟩ := cycleStart_timing (s.runTo s.clock.cycleEnd)
  refine ⟨_, exec_naturalCycleStart hr, htimer, hnumber, ?_, hsync, hk.trunkCount.trans htrunk, hk.straps.trans hstraps, ?_, hlock, ?_⟩
  · rw [hend, hcfg, atStart_active]
  · rw [hk.mgmt, hmgmt]
    rfl
  · rw [hcfg]
    unfold ConfigUnit.atStart
    split
    · next h => rw [if_pos (swapDue_iff.1 h)]; rfl
    · next h => rw [if_neg (mt swapDue_iff.2 h)]

/-! ### The choices a cycle start asks for -/

theorem PerPort.fill_set {α : Type} (p : Port) (a : α) : (PerPort.fill a).set p a = PerPort.fill a := by cases p <;> rfl

/-- The openings of trunk windows at 0 keep the expiries left, and a choice that every port is asked for. -/
theorem foldl_openAtZero_aux (ps : List Port) (s : State) : (ps.foldl State.openAtZero s).aux.expiryLeft = s.aux.expiryLeft ∧
    (s.aux.choiceDue = PerPort.fill true → (ps.foldl State.openAtZero s).aux.choiceDue = PerPort.fill true) := by
  refine List.foldlRecOn (motive := fun t : State => t.aux.expiryLeft = s.aux.expiryLeft ∧
    (s.aux.choiceDue = PerPort.fill true → t.aux.choiceDue = PerPort.fill true)) _ _ ⟨rfl, id⟩ ?_
  rintro t ⟨hleft, hdue⟩ p -
  unfold State.openAtZero
  split
  · obtain ⟨-, -, -, -, -, haux⟩ := takeOpening_spec t p
    rw [haux]
    refine ⟨hleft, fun h => ?_⟩
    dsimp only
    rw [hdue h, PerPort.fill_set, ite_self]
  · exact ⟨hleft, hdue⟩

theorem foldl_offerSync_aux (ps : List Port) (s : State) : (ps.foldl State.offerSync s).aux = s.aux := by
  refine List.foldlRecOn (motive := fun t : State => t.aux = s.aux) _ _ rfl fun t ht p _ => ?_
  unfold State.offerSync
  dsimp only
  split
  · split <;> exact ht
  · exact ht

/-- The state of a cycle start once branch sync frames have been offered. -/
def State.syncOffered (s : State) : State :=
  if s.turned.beginCycle.reevaluate.enforcing then Port.branches.foldl State.offerSync s.turned.beginCycle.reevaluate
  else s.turned.beginCycle.reevaluate

theorem cycleStart_eq (s : State) : s.cycleStart = Port.all.foldl State.openAtZero s.syncOffered.leaveExpiries := rfl

theorem syncOffered_kept (s : State) : Kept s.turned.beginCycle.reevaluate s.syncOffered :=
  Kept.ite (Kept.foldl (fun t p => offerSync_kept t p) _ _) (.refl _)

theorem reevaluate_aux (s : State) : s.reevaluate.aux.expiryTaken = s.aux.expiryTaken ∧
    (s.aux.choiceDue = PerPort.fill true → s.reevaluate.aux.choiceDue = PerPort.fill true) := by
  unfold State.reevaluate
  split
  · exact ⟨rfl, id⟩
  · exact ⟨rfl, fun _ => rfl⟩

theorem syncOffered_aux (s : State) : s.syncOffered.aux.expiryTaken = s.aux.expiryTaken ∧
    (swapDue s.cfg (s.clock.number + 1) = true → s.syncOffered.aux.choiceDue = PerPort.fill true) := by
  obtain ⟨htaken, hdue⟩ := reevaluate_aux s.turned.beginCycle
  have hoffered : s.syncOffered.aux = s.turned.beginCycle.reevaluate.aux := by
    unfold State.syncOffered
    split
    · exact foldl_offerSync_aux ..
    · rfl
  have hturned : s.turned.aux.expiryTaken = s.aux.expiryTaken := by
    unfold State.turned
    split <;> rfl
  rw [hoffered]
  refine ⟨htaken.trans hturned, fun hd => hdue ?_⟩
  have hswap : s.turned = s.turnCycle.takeSwap := if_pos hd
  rw [hswap]
  rfl

/-- A cycle start leaves the expiries of the ports for which none was taken ahead, and a swap asks every port for a choice. -/
theorem cycleStart_aux (s : State) :
    (∀ p, s.cycleStart.aux.expiryLeft.get p = if s.aux.expiryTaken.get p = true then none else some (s.clock.number + 1)) ∧
    (swapDue s.cfg (s.clock.number + 1) = true → s.cycleStart.aux.choiceDue = PerPort.fill true) := by
  obtain ⟨htaken, hdue⟩ := syncOffered_aux s
  obtain ⟨hleft, hopened⟩ := foldl_openAtZero_aux Port.all s.syncOffered.leaveExpiries
  have hnumber : s.syncOffered.clock.number = s.clock.number + 1 := by
    rw [(syncOffered_kept s).clock, ← (cycleStart_kept s).clock, (cycleStart_timing s).2.2.2.2.2.2.2.1]
  rw [cycleStart_eq]
  refine ⟨fun p => ?_, fun hd => hopened (hdue hd)⟩
  rw [hleft, (leaveExpiries_get ..).2, htaken, hnumber]

/-! ### The swap -/

/-- The notice of a swap does not read the timer. -/
theorem raise_timer (e : EventUnit) (x : Option Nat) (k : NoticeKind) (p : Option Port) (n : Option StreamNo) (c d : Word) :
    EventUnit.raise { e with timer := x } k p n c d = { e.raise k p n c d with timer := x } := by
  unfold EventUnit.raise
  dsimp only
  split <;> rfl

theorem takeSwap_events (s : State) : s.takeSwap.events =
    s.events.raise .commitDone none none s.clock.number ((nextGeneration s.cfg.generation).setWidth 32) := rfl

theorem turned_swap_events {s : State} (hd : swapDue s.cfg (s.clock.number + 1) = true) : s.turned.events =
    s.events.raise .commitDone none none (s.clock.number + 1) ((nextGeneration s.cfg.generation).setWidth 32) := by
  have hturned : s.turned = s.turnCycle.takeSwap := if_pos hd
  rw [hturned]
  rfl

/-- The event unit of a cycle start that swaps: as it was, but for COMMIT_DONE, the pool mark and the timer that has run (R54). -/
theorem cycleStart_swap_events {s : State} (hd : swapDue s.cfg (s.clock.number + 1) = true) (v : Nat) :
    (s.runTo v).cycleStart.events =
      { s.events.raise .commitDone none none (s.clock.number + 1) ((nextGeneration s.cfg.generation).setWidth 32) with
        timer := (s.runTo v).cycleStart.events.timer, poolMark := none } := by
  have hrun : (s.runTo v).events = { s.events with timer := (s.runTo v).events.timer } := rfl
  have hturned := turned_swap_events (s := s.runTo v) hd
  rw [hrun, raise_timer] at hturned
  rw [(cycleStart_rest _).2, hturned]
  rfl

/-- Settles O9. -/
theorem swapInstallsThePendingConfiguration : Obligations.SwapInstallsThePendingConfiguration := by
  intro s hr hd
  have hexec := exec_swap_due hr hd
  obtain ⟨htimer, hnumber, hend, hcfg, hsync, hlock⟩ := settled_cycleStart s
  have hswapped : s.cfg.atStart (s.clock.number + 1) =
      { s.cfg with active := s.cfg.staged, generation := nextGeneration s.cfg.generation, armed := none, edited := false } := if_pos hd
  rw [hswapped] at hcfg
  refine ⟨hexec.trans (exec_naturalCycleStart hr).symm, ⟨_, _, hexec, rfl, cycleStart_swap_events hd _,
    (cycleStart_aux (s.runTo s.clock.cycleEnd)).2 hd, hcfg, htimer, hnumber, ?_, by rw [hsync], by rw [hsync], by rw [hsync], ?_⟩,
    takeSwap_events s⟩
  · rw [hend, cycleConfig, if_pos hd]
  · rw [hlock, State.enforcing, hsync, hcfg]
    simpa using fun _ => nextGeneration_ne_zero s.cfg.generation

end Sys2Proof.Machine
end

section
/-! The opening and the close of a window, and when a window is open (R3, R10, R103). -/

namespace Sys2Proof.Machine

open Sys2Proof

/-! ### The open window -/

/-- Two windows of one port that hold one instant are the same (R2). -/
theorem Configuration.Ok.window_unique {c : Configuration} (hc : c.Ok) {v w : Window} (hv : v ∈ c.windows) (hw : w ∈ c.windows)
    (hp : v.port = w.port) {n : Nat} (hvs : v.start ≤ n) (hve : n < v.stop) (hws : w.start ≤ n) (hwe : n < w.stop) : v = w := by
  obtain ⟨-, -, -, -, hlisted, hclear, -⟩ := hc
  have hkeys : c.windows.Pairwise fun a b => ¬(a.port = b.port ∧ a.start = b.start) :=
    hlisted.imp fun h ⟨hp, hs⟩ => Window.not_sameKey_of_before h (Window.sameKey_iff.2 ⟨hp.symm, hs.symm⟩)
  by_contra hne
  have hstart : ¬(v.port = w.port ∧ v.start = w.start) :=
    have : Std.Symm fun a b : Window => ¬(a.port = b.port ∧ a.start = b.start) := ⟨fun _ _ h ⟨hp, hs⟩ => h ⟨hp.symm, hs.symm⟩⟩
    hkeys.forall hv hw hne
  have hkey : v.sameKey w = false := Bool.not_eq_true _ ▸ mt Window.sameKey_iff.1 hstart
  have hoverlap := hclear v hv w hw hp hkey
  simp only [Window.overlaps, Bool.or_eq_false_iff, Bool.and_eq_false_iff, decide_eq_false_iff_not] at hoverlap
  omega

section
variable {s : State} {w : Window}

/-- A window has opened and not ended: its start is passed, or reached with its opening taken (R3). -/
def State.Opened (s : State) (w : Window) : Prop :=
  (w.start < s.clock.timer ∨ w.start = s.clock.timer ∧ s.aux.openedAt.get w.port = some s.clock.elapsed) ∧ s.clock.timer < w.stop

theorem State.Opened.start_le (h : s.Opened w) : w.start ≤ s.clock.timer := h.1.elim Nat.le_of_lt fun h => Nat.le_of_eq h.1

theorem openWindow_some {p : Port} (h : s.openWindow p = some w) : w ∈ s.cfg.active.windows ∧ w.port = p ∧ s.Opened w := by
  have hmem := mem_portWindows.1 (List.mem_of_find?_eq_some h)
  obtain ⟨hw, rfl⟩ := hmem
  exact ⟨hw, rfl, by simpa [State.Opened, State.openingTaken] using List.find?_some h⟩

/-- In a configuration within its limits the window that has opened is the open one. -/
theorem openWindow_of_opened (hc : s.cfg.active.Ok) (hw : w ∈ s.cfg.active.windows) (h : s.Opened w) : s.openWindow w.port = some w := by
  cases ho : s.openWindow w.port with
  | none =>
    refine absurd ?_ (List.find?_eq_none.1 ho w (mem_portWindows.2 ⟨hw, rfl⟩))
    simpa [State.Opened, State.openingTaken] using h
  | some v =>
    obtain ⟨hv, hp, hopened⟩ := openWindow_some ho
    rw [hc.window_unique hv hw hp hopened.start_le hopened.2 h.start_le h.2]

/-- At its start, before its opening is taken, no window of the port is open (R103). -/
theorem openWindow_before_opening (hc : s.cfg.active.Ok) (hw : w ∈ s.cfg.active.windows) (ht : s.clock.timer = w.start)
    (hopen : s.aux.openedAt.get w.port ≠ some s.clock.elapsed) : s.openWindow w.port = none := by
  cases ho : s.openWindow w.port with
  | none => rfl
  | some v =>
    obtain ⟨hv, hp, hopened⟩ := openWindow_some ho
    have hlength : 32 ≤ w.length := (hc.2.2.2.1 w hw).1
    have hstop : s.clock.timer < w.stop := by
      rw [ht, Window.stop]
      omega
    obtain rfl := hc.window_unique hv hw hp hopened.start_le hopened.2 (Nat.le_of_eq ht.symm) hstop
    obtain ⟨hlt | ⟨-, htaken⟩, -⟩ := hopened
    · exact absurd ht.symm (Nat.ne_of_lt hlt)
    · exact absurd htaken hopen

theorem openWindow_outside (h : s.clock.timer < w.start ∨ w.stop ≤ s.clock.timer) : s.openWindow w.port ≠ some w := fun ho => by
  obtain ⟨-, -, hopened⟩ := openWindow_some ho
  have := hopened.start_le
  have := hopened.2
  omega

end

/-! ### WINDOW_OPEN and WINDOW_CLOSE -/

section
variable {s : State} {w : Window}

theorem runTo_timer {v : Nat} (h : s.clock.timer ≤ v) : (s.runTo v).clock.timer = v := Nat.add_sub_cancel' h

theorem exec_windowOpen (hr : s.resetHeld = false) (hw : w ∈ s.cfg.active.windows) (ht : s.clock.timer ≤ w.start)
    (he : w.start < s.clock.cycleEnd) : exec (.windowOpen w.port w.start) s = .next (settle ((s.runTo w.start).takeOpening w.port)) := by
  have hat : (s.windowAt w.port w.start).isSome = true :=
    List.find?_isSome.2 ⟨w, mem_portWindows.2 ⟨hw, rfl⟩, decide_eq_true rfl⟩
  simp only [Machine.exec, execWindowOpen]
  rw [taken_running hr, if_pos ⟨hat, ht, he⟩]

theorem exec_windowClose (hr : s.resetHeld = false) (hw : w ∈ s.cfg.active.windows) (ht : s.clock.timer ≤ w.stop)
    (he : w.stop ≤ s.clock.cycleEnd) : exec (.windowClose w.port w.stop) s = .next (settle (s.runTo w.stop)) := by
  have hany : ((portWindows s.cfg.active w.port).any fun v => v.stop = w.stop) = true :=
    List.any_eq_true.2 ⟨w, mem_portWindows.2 ⟨hw, rfl⟩, decide_eq_true rfl⟩
  simp only [Machine.exec, execWindowClose]
  rw [taken_running hr, if_pos ⟨hany, ht, he⟩]

theorem advance_busy {n : Nat} {q : Port} {f : TxFrame} {occ rem : Nat} (h : (s.ports.get q).tx = .busy f occ rem) :
    ((s.advance n).ports.get q).tx = .busy f occ (rem - n) := by
  rw [advance_port, PortUnit.elapse, h]
  rfl

end

/-- Settles O11. -/
theorem windowsOpenAndClose : Obligations.WindowsOpenAndClose := by
  refine ⟨fun s w hr hinv hw ht he => ?_, fun s w hr hw ht he => ?_, fun s w hinv hw => ⟨fun hat hopen => ?_, fun hs he => ?_, fun h => ?_⟩⟩
  · have hkept := takeOpening_kept (s.runTo w.start) w.port
    obtain ⟨hports, hstore, hown, -, -, haux⟩ := takeOpening_spec (s.runTo w.start) w.port
    have htimer : ((s.runTo w.start).takeOpening w.port).clock.timer = w.start := by rw [hkept.clock, runTo_timer ht]
    have hlength : 32 ≤ w.length := (hinv.1.2.2.2.1 w hw).1
    refine ⟨_, exec_windowOpen hr hw ht he, htimer, by rw [hkept.clock]; rfl, ?_, fun q => ?_, hkept.cfg, hkept.sync, hstore, hown, fun q => ?_⟩
    · have hcfg : ((s.runTo w.start).takeOpening w.port).cfg = s.cfg := hkept.cfg
      refine openWindow_of_opened (by rw [hcfg]; exact hinv.1) (by rw [hcfg]; exact hw) ⟨.inr ⟨htimer.symm, ?_⟩, ?_⟩
      · rw [haux, hkept.clock, PerPort.get_set, if_pos rfl]
      · rw [htimer, Window.stop]
        omega
    · have henforcing : (s.runTo w.start).enforcing = s.enforcing := rfl
      have hdue : (s.runTo w.start).aux.choiceDue = s.aux.choiceDue := rfl
      rw [haux, henforcing, hdue]
      cases s.enforcing with
      | false => simp
      | true =>
        dsimp only
        rw [if_pos rfl, PerPort.get_set]
        split
        · next hq => simp [hq]
        · next hq => simp [hq]
    · rw [hports]
      exact ⟨advance_queues .., advance_count ..⟩
  · have htimer := runTo_timer ht
    refine ⟨_, exec_windowClose hr hw ht he, htimer, rfl, openWindow_outside (.inr (Nat.le_of_eq htimer.symm)),
      fun q f occ rem hq => advance_busy hq, rfl, rfl, rfl, rfl, rfl, fun q => ⟨advance_queues .., advance_count ..⟩⟩
  · exact openWindow_before_opening hinv.1 hw hat hopen
  · exact openWindow_of_opened hinv.1 hw ⟨.inl hs, he⟩
  · exact openWindow_outside h

end Sys2Proof.Machine
end

section
/-! LIFETIME_EXPIRY (R73 to R75): the accounting and the report of the late descriptors of a port, stream by stream. -/

namespace Sys2Proof.Machine

open Sys2Proof

/-! ### Accounting -/

section
variable (c : Configuration) (p : Port)

theorem countLate_foldl_store (ds : List Descriptor) (s : State) :
    (ds.foldl (fun t d => t.countLate c p d) s).store = ds.foldl (fun x d => x.release d.frame) s.store := by
  induction ds generalizing s with
  | nil => rfl
  | cons d ds ih =>
    have hone : (s.countLate c p d).store = s.store.release d.frame := by
      unfold State.countLate
      dsimp only
      split <;> rfl
    rw [List.foldl_cons, List.foldl_cons, ih, hone]

/-- A record with so many more late descriptors. -/
def StreamRecord.countedLate (n : Nat) (r : StreamRecord) : StreamRecord := { r with late := r.late + BitVec.ofNat 32 n }

theorem StreamRecord.countedLate_zero : StreamRecord.countedLate 0 = id := by
  funext r
  simp [StreamRecord.countedLate]

/-- Each late descriptor of a stream with an entry is counted in the stream's record (R73). -/
theorem countLate_record (s : State) (d : Descriptor) (m : StreamNo) : streamRecord (s.countLate c p d).classifier.records m =
    (streamRecord s.classifier.records m).map (StreamRecord.countedLate (if d.stream = m ∧ (streamEntry c m).isSome = true then 1 else 0)) := by
  rw [countLate_classifier]
  by_cases hm : d.stream = m
  · subst hm
    split
    · next he => rw [if_pos ⟨rfl, he⟩]; exact streamRecord_updateRecord_same (f := StreamRecord.countedLate 1) (fun _ => rfl) ..
    · next he => rw [if_neg fun h => he h.2, StreamRecord.countedLate_zero, Option.map_id]; rfl
  · rw [if_neg (c := d.stream = m ∧ (streamEntry c m).isSome = true) fun h => hm h.1, StreamRecord.countedLate_zero, Option.map_id, id]
    split
    · exact streamRecord_updateRecord_other (f := StreamRecord.countedLate 1) (fun _ => rfl) (Ne.symm hm) _
    · rfl

theorem countedLate_countedLate (a b : Nat) (r : StreamRecord) : (r.countedLate a).countedLate b = r.countedLate (a + b) := by
  simp [StreamRecord.countedLate, BitVec.ofNat_add, add_assoc]

/-- The late descriptors of a list, stream by stream. -/
theorem countLate_foldl_record (ds : List Descriptor) (s : State) (m : StreamNo) :
    streamRecord (ds.foldl (fun t d => t.countLate c p d) s).classifier.records m =
      (streamRecord s.classifier.records m).map
        (StreamRecord.countedLate (if (streamEntry c m).isSome = true then (ds.filter fun d => d.stream = m).length else 0)) := by
  induction ds generalizing s with
  | nil => simp [StreamRecord.countedLate_zero]
  | cons d ds ih =>
    rw [List.foldl_cons, ih, countLate_record, Option.map_map]
    congr 1
    funext r
    rw [Function.comp_apply, countedLate_countedLate]
    congr 1
    by_cases hm : d.stream = m <;> by_cases he : (streamEntry c m).isSome = true <;> simp [hm, he, Nat.add_comm]

theorem countLate_foldl_unknownMarks (ds : List Descriptor) (s : State) :
    (ds.foldl (fun t d => t.countLate c p d) s).classifier.unknownMarks = s.classifier.unknownMarks :=
  List.foldlRecOn (motive := fun t : State => t.classifier.unknownMarks = s.classifier.unknownMarks) _ _ rfl fun t ht d _ => by
    rw [countLate_classifier]
    split <;> exact ht

end

/-! ### The report -/

section
variable (c : Configuration) (p : Port) (n : Word) (flagged : StreamNo → Bool) (removed : StreamNo → Nat)

/-- Whether a stream's late descriptors are reported: one is flagged, the stream has an entry and a record, and its LATE mark is not in effect
(R74). -/
def State.reportsStream (s : State) (m : StreamNo) : Bool :=
  flagged m && (streamEntry c m).isSome && (streamRecord s.classifier.records m).any fun r => r.lateMark ≠ some n

/-- The notice of a stream's late descriptors. -/
def EventUnit.raiseLate (e : EventUnit) (m : StreamNo) : EventUnit :=
  e.raise .streamLate (some p) (if m = 0 then none else some m) n (BitVec.ofNat 32 (removed m))

theorem reportLate_silent {s : State} {m : StreamNo} (h : ¬s.reportsStream c n flagged m = true) :
    s.reportLate c p m (flagged m) n (removed m) = s := by
  unfold State.reportLate
  split
  · rfl
  · next r hr =>
    refine if_neg fun hc => h ?_
    simpa [State.reportsStream, hr, inEffect_iff, and_assoc] using hc

theorem reportLate_reported {s : State} {m : StreamNo} (h : s.reportsStream c n flagged m = true) :
    (s.reportLate c p m (flagged m) n (removed m)).events = s.events.raiseLate p n removed m ∧
    (s.reportLate c p m (flagged m) n (removed m)).classifier =
      { s.classifier with records := updateRecord m (fun r => { r with lateMark := some n }) s.classifier.records } := by
  simp only [State.reportsStream, Bool.and_eq_true, Option.any_eq_true, decide_eq_true_eq] at h
  obtain ⟨⟨hflag, hentry⟩, r, hr, hmark⟩ := h
  have heq : s.reportLate c p m (flagged m) n (removed m) =
      (s.raiseAt .streamLate (some p) (noticeStream m) n (wordOf (removed m))).onRecord m fun r => { r with lateMark := some n } := by
    rw [State.reportLate, hr]
    exact if_pos ⟨hflag, hentry, mt (inEffect_iff ..).1 hmark⟩
  rw [heq]
  exact ⟨rfl, rfl⟩

/-- A report of one stream leaves the record of every other, and the question whether it is reported. -/
theorem reportLate_other {s : State} {m k : StreamNo} (hk : k ≠ m) :
    streamRecord (s.reportLate c p m (flagged m) n (removed m)).classifier.records k = streamRecord s.classifier.records k := by
  by_cases h : s.reportsStream c n flagged m = true
  · rw [(reportLate_reported c p n flagged removed h).2]
    exact streamRecord_updateRecord_other (f := fun r => { r with lateMark := some n }) (fun _ => rfl) hk _
  · rw [reportLate_silent c p n flagged removed h]

theorem reportLate_self (s : State) (m : StreamNo) :
    streamRecord (s.reportLate c p m (flagged m) n (removed m)).classifier.records m =
      (streamRecord s.classifier.records m).map fun r =>
        { r with lateMark := if s.reportsStream c n flagged m = true then some n else r.lateMark } := by
  by_cases h : s.reportsStream c n flagged m = true
  · rw [(reportLate_reported c p n flagged removed h).2, h]
    exact streamRecord_updateRecord_same (f := fun r => { r with lateMark := some n }) (fun _ => rfl) ..
  · rw [reportLate_silent c p n flagged removed h]
    cases streamRecord s.classifier.records m with
    | none => rfl
    | some r => simp [h]

/-- The reports of distinct streams, one after another, are those the records at the start call for. -/
theorem reportLate_foldl (ms : List StreamNo) (hms : ms.Nodup) (s : State) :
    (ms.foldl (fun t m => t.reportLate c p m (flagged m) n (removed m)) s).events =
      (ms.filter (s.reportsStream c n flagged)).foldl (EventUnit.raiseLate p n removed) s.events ∧
    ∀ k, streamRecord (ms.foldl (fun t m => t.reportLate c p m (flagged m) n (removed m)) s).classifier.records k =
      (streamRecord s.classifier.records k).map fun r =>
        { r with lateMark := if k ∈ ms ∧ s.reportsStream c n flagged k = true then some n else r.lateMark } := by
  induction ms generalizing s with
  | nil =>
    refine ⟨rfl, fun k => ?_⟩
    rw [List.foldl_nil]
    cases streamRecord s.classifier.records k <;> simp
  | cons m ms ih =>
    obtain ⟨hm, hms⟩ := List.nodup_cons.1 hms
    obtain ⟨hevents, hrecords⟩ := ih hms (s.reportLate c p m (flagged m) n (removed m))
    have hsame {k : StreamNo} (hk : k ≠ m) : (s.reportLate c p m (flagged m) n (removed m)).reportsStream c n flagged k =
        s.reportsStream c n flagged k := by
      rw [State.reportsStream, reportLate_other c p n flagged removed hk]
      rfl
    rw [List.foldl_cons]
    refine ⟨?_, fun k => ?_⟩
    · rw [hevents, List.filter_congr fun k hk => hsame fun he => hm (he ▸ hk)]
      by_cases h : s.reportsStream c n flagged m = true
      · rw [List.filter_cons_of_pos h, List.foldl_cons, (reportLate_reported c p n flagged removed h).1]
      · rw [List.filter_cons_of_neg h, reportLate_silent c p n flagged removed h]
    · rw [hrecords]
      by_cases hk : k = m
      · subst hk
        rw [reportLate_self]
        cases streamRecord s.classifier.records k <;> simp [hm]
      · rw [reportLate_other c p n flagged removed hk, hsame hk]
        simp [hk]

theorem reportLate_foldl_unknownMarks (ms : List StreamNo) (s : State) :
    (ms.foldl (fun t m => t.reportLate c p m (flagged m) n (removed m)) s).classifier.unknownMarks = s.classifier.unknownMarks :=
  List.foldlRecOn (motive := fun t : State => t.classifier.unknownMarks = s.classifier.unknownMarks) _ _ rfl fun t ht m _ => by
    by_cases h : t.reportsStream c n flagged m = true
    · rw [(reportLate_reported c p n flagged removed h).2]
      exact ht
    · rwa [reportLate_silent c p n flagged removed h]

theorem reportLate_foldl_work (ms : List StreamNo) (s : State) :
    (ms.foldl (fun t m => t.reportLate c p m (flagged m) n (removed m)) s).store = s.store ∧
    (ms.foldl (fun t m => t.reportLate c p m (flagged m) n (removed m)) s).own = s.own ∧
    (ms.foldl (fun t m => t.reportLate c p m (flagged m) n (removed m)) s).aux = s.aux :=
  (reportLate_foldl_rest _ (fun t m => by
    obtain ⟨hports, hstore, hown, -, haux, -⟩ := reportLate_rest t c p m (flagged m) n (removed m)
    exact ⟨hports, hstore, hown, haux⟩) ms s).2

theorem raiseLate_timer (ms : List StreamNo) (e : EventUnit) : (ms.foldl (EventUnit.raiseLate p n removed) e).timer = e.timer :=
  List.foldlRecOn (motive := fun x : EventUnit => x.timer = e.timer) _ _ rfl fun _ hx _ _ => (raise_rest ..).2.2.1.trans hx

end

theorem mem_streamsOf {ds : List Descriptor} {m : StreamNo} : m ∈ streamsOf ds ↔ ∃ d ∈ ds, d.stream = m := by
  induction ds with
  | nil => simp [streamsOf]
  | cons d ds ih =>
    by_cases hm : m = d.stream
    · simp [streamsOf, hm]
    · simp [streamsOf, ih, hm, Ne.symm hm]

theorem streamsOf_nodup (ds : List Descriptor) : (streamsOf ds).Nodup := by
  induction ds with
  | nil => exact List.nodup_nil
  | cons d ds ih => exact List.nodup_cons.2 ⟨by simp, ih.filter _⟩

end Sys2Proof.Machine
end

section
/-! LIFETIME_EXPIRY as a command (R73 to R75), taken ahead of the cycle start or left by it (log entry 11). -/

namespace Sys2Proof.Machine

open Sys2Proof

/-! ### The expiry of one egress unit -/

/-- The descriptors of a port that are late at a cycle number. -/
def PortUnit.late (u : PortUnit) (n : Word) : List Descriptor := u.queues.toList.flatten.filter fun d => earlier d.deadline n

/-- How many late descriptors of a stream a port holds. -/
def PortUnit.lateCount (u : PortUnit) (n : Word) (m : StreamNo) : Nat := ((u.late n).filter fun d => d.stream = m).length

/-- Whether a late descriptor of a stream at a port asks for a report. -/
def PortUnit.lateFlagged (u : PortUnit) (n : Word) (m : StreamNo) : Bool := ((u.late n).filter fun d => d.stream = m).any (·.reportLate)

theorem filter_not_live (n : Word) (l : List Descriptor) : (l.filter fun d => !d.live n) = l.filter fun d => earlier d.deadline n := by
  simp only [Descriptor.live, Bool.not_not]

theorem late_eq (u : PortUnit) (n : Word) : (u.queues.map fun q => q.filter fun d => !d.live n).toList.flatten = u.late n := by
  simp only [filter_not_live, PortUnit.late, List.filter_flatten]
  rfl

/-- The state of an expiry when the late descriptors are gone from the queues and accounted, and not yet reported. -/
def State.lateCounted (s : State) (n : Word) (p : Port) : State :=
  ((s.ports.get p).late n).foldl (fun t d => t.countLate (cycleConfig s.cfg n) p d)
    (if (s.ports.get p).queues.toList.any (headExpires n) then
      (s.onPort p fun u => { u with queues := u.queues.map fun q => q.filter fun d => d.live n }).prompt p
    else s.onPort p fun u => { u with queues := u.queues.map fun q => q.filter fun d => d.live n })

theorem expirePort_eq (s : State) (n : Word) (p : Port) : s.expirePort n p =
    (streamsOf ((s.ports.get p).late n)).foldl
      (fun t m => t.reportLate (cycleConfig s.cfg n) p m ((s.ports.get p).lateFlagged n m) n
        ((s.ports.get p).lateCount n m)) (s.lateCounted n p) := by
  unfold State.expirePort State.lateCounted
  simp only [late_eq, PortUnit.lateFlagged, PortUnit.lateCount, List.any_filter]

section
variable (s : State) (n : Word) (p : Port)

theorem lateCounted_rest : (s.lateCounted n p).own = s.own ∧ (s.lateCounted n p).events = s.events ∧
    (s.lateCounted n p).store = ((s.ports.get p).late n).foldl (fun x d => x.release d.frame) s.store ∧
    (s.lateCounted n p).classifier.unknownMarks = s.classifier.unknownMarks ∧
    (∀ m, streamRecord (s.lateCounted n p).classifier.records m = (streamRecord s.classifier.records m).map
      (StreamRecord.countedLate (if (streamEntry (cycleConfig s.cfg n) m).isSome = true then
        (s.ports.get p).lateCount n m else 0))) ∧
    ((s.ports.get p).queues.toList.any (headExpires n) = true → (s.lateCounted n p).aux.choiceDue.get p = true) := by
  unfold State.lateCounted
  generalize ht : (if (s.ports.get p).queues.toList.any (headExpires n) = true then
      (s.onPort p fun u => { u with queues := u.queues.map fun q => q.filter fun d => d.live n }).prompt p
    else s.onPort p fun u => { u with queues := u.queues.map fun q => q.filter fun d => d.live n }) = t
  have hrest : t.own = s.own ∧ t.events = s.events ∧ t.store = s.store ∧ t.classifier = s.classifier ∧
      ((s.ports.get p).queues.toList.any (headExpires n) = true → t.aux.choiceDue.get p = true) := by
    subst ht
    split
    · exact ⟨rfl, rfl, rfl, rfl, fun _ => prompt_choiceDue ..⟩
    · next h => exact ⟨rfl, rfl, rfl, rfl, fun hx => absurd hx h⟩
  obtain ⟨hown, hevents, hstore, hclassifier, hdue⟩ := hrest
  obtain ⟨cown, -, caux, cevents⟩ := countLate_foldl_rest (cycleConfig s.cfg n) p ((s.ports.get p).late n) t
  refine ⟨cown.trans hown, cevents.trans hevents, ?_, ?_, fun m => ?_, fun h => ?_⟩
  · rw [countLate_foldl_store, hstore]
  · rw [countLate_foldl_unknownMarks, hclassifier]
  · rw [countLate_foldl_record, hclassifier]
    rfl
  · rw [caux]
    exact hdue h

/-- A queue whose head is late and which holds a live descriptor gets a new head. -/
theorem headExpires_of {k : Fin 4} {u : PortUnit} {d : Descriptor} {ds : List Descriptor} (hq : u.queues.get k = d :: ds)
    (hd : earlier d.deadline n = true) (hx : ∃ x ∈ ds, earlier x.deadline n = false) :
    u.queues.toList.any (headExpires n) = true := by
  obtain ⟨x, hx, hlive⟩ := hx
  refine List.any_eq_true.2 ⟨_, (Quad.mem_toList ..).2 ⟨k, rfl⟩, ?_⟩
  rw [hq, headExpires, Bool.and_eq_true]
  refine ⟨by simp [Descriptor.live, hd], List.any_eq_true.2 ⟨x, List.mem_cons_of_mem _ hx, by simp [Descriptor.live, hlive]⟩⟩

/-- What an expiry does beside the ports: the store, the records, the notices, and the choice it asks for. -/
theorem expirePort_rest :
    (s.expirePort n p).own = s.own ∧
    (s.expirePort n p).store = ((s.ports.get p).late n).foldl (fun x d => x.release d.frame) s.store ∧
    (s.expirePort n p).classifier.unknownMarks = s.classifier.unknownMarks ∧
    ((s.ports.get p).queues.toList.any (headExpires n) = true → (s.expirePort n p).aux.choiceDue.get p = true) := by
  obtain ⟨hown, -, hstore, hmarks, -, hdue⟩ := lateCounted_rest s n p
  rw [expirePort_eq]
  obtain ⟨rstore, rown, raux⟩ := reportLate_foldl_work (cycleConfig s.cfg n) p n ((s.ports.get p).lateFlagged n)
    ((s.ports.get p).lateCount n) (streamsOf ((s.ports.get p).late n)) (s.lateCounted n p)
  have rmarks := reportLate_foldl_unknownMarks (cycleConfig s.cfg n) p n ((s.ports.get p).lateFlagged n)
    ((s.ports.get p).lateCount n) (streamsOf ((s.ports.get p).late n)) (s.lateCounted n p)
  exact ⟨rown.trans hown, rstore.trans hstore, rmarks.trans hmarks, fun h => by rw [raux]; exact hdue h⟩

/-- Whether a stream's late descriptors at a port are reported at a cycle number. -/
def State.lateReported (s : State) (n : Word) (p : Port) : StreamNo → Bool :=
  s.reportsStream (cycleConfig s.cfg n) n ((s.ports.get p).lateFlagged n)

theorem lateCounted_reported (m : StreamNo) :
    (s.lateCounted n p).reportsStream (cycleConfig s.cfg n) n
      ((s.ports.get p).lateFlagged n) m = s.lateReported n p m := by
  obtain ⟨-, -, -, -, hrecords, -⟩ := lateCounted_rest s n p
  rw [State.reportsStream, hrecords, State.lateReported, State.reportsStream]
  cases streamRecord s.classifier.records m <;> rfl

/-- A stream whose late descriptors are reported has some. -/
theorem mem_of_lateReported {m : StreamNo} (h : s.lateReported n p m = true) : m ∈ streamsOf ((s.ports.get p).late n) := by
  simp only [State.lateReported, State.reportsStream, PortUnit.lateFlagged, Bool.and_eq_true, List.any_eq_true] at h
  obtain ⟨⟨⟨d, hd, -⟩, -⟩, -⟩ := h
  obtain ⟨hd, hm⟩ := List.mem_filter.1 hd
  exact mem_streamsOf.2 ⟨d, hd, of_decide_eq_true hm⟩

/-- The notices of an expiry, one for each stream reported, and the records it leaves. -/
theorem expirePort_reports :
    (s.expirePort n p).events =
      ((streamsOf ((s.ports.get p).late n)).filter (s.lateReported n p)).foldl
        (EventUnit.raiseLate p n ((s.ports.get p).lateCount n)) s.events ∧
    ∀ m r, streamRecord s.classifier.records m = some r →
      streamRecord (s.expirePort n p).classifier.records m =
        some { r with
          late := r.late + BitVec.ofNat 32 (if (streamEntry (cycleConfig s.cfg n) m).isSome = true then
            (s.ports.get p).lateCount n m else 0)
          lateMark := if s.lateReported n p m = true then some n else r.lateMark } := by
  obtain ⟨-, hevents, -, -, hrecords, -⟩ := lateCounted_rest s n p
  obtain ⟨revents, rrecords⟩ := reportLate_foldl (cycleConfig s.cfg n) p n
    ((s.ports.get p).lateFlagged n)
    ((s.ports.get p).lateCount n) _ (streamsOf_nodup ((s.ports.get p).late n)) (s.lateCounted n p)
  rw [expirePort_eq]
  refine ⟨?_, fun m r hr => ?_⟩
  · rw [revents, hevents, List.filter_congr fun m _ => lateCounted_reported s n p m]
  · rw [rrecords, hrecords, hr, lateCounted_reported]
    have hmem : (m ∈ streamsOf ((s.ports.get p).late n) ∧ s.lateReported n p m = true) ↔ s.lateReported n p m = true :=
      and_iff_right_of_imp (mem_of_lateReported s n p)
    simp only [Option.map_some, hmem]
    rfl

end

/-! ### Ahead of the cycle start, or after it -/

/-- What an expiry reads of a state is what it was before the timer ran. -/
structure RunKept (s v : State) : Prop where
  queues : ∀ q, (v.ports.get q).queues = (s.ports.get q).queues
  count : ∀ q, (v.ports.get q).count = (s.ports.get q).count
  idle : ∀ q, (v.ports.get q).tx.isIdle = (s.ports.get q).tx.isIdle
  admin : ∀ q, (v.ports.get q).admin = (s.ports.get q).admin
  link : ∀ q, (v.ports.get q).link = (s.ports.get q).link
  store : v.store = s.store
  classifier : v.classifier = s.classifier
  own : v.own = s.own
  cfg : v.cfg = s.cfg
  sync : v.sync = s.sync
  number : v.clock.number = s.clock.number
  events : v.events = { s.events with timer := v.events.timer }

theorem RunKept.refl (s : State) : RunKept s s :=
  ⟨fun _ => rfl, fun _ => rfl, fun _ => rfl, fun _ => rfl, fun _ => rfl, rfl, rfl, rfl, rfl, rfl, rfl, rfl⟩

theorem RunKept.runTo (s : State) (n : Nat) : RunKept s (s.runTo n) where
  queues q := advance_queues ..
  count q := advance_count ..
  idle q := by
    rw [State.runTo, advance_port]
    exact elapse_isIdle ..
  admin q := by
    rw [State.runTo, advance_port]
    rfl
  link q := by
    rw [State.runTo, advance_port]
    rfl
  store := rfl
  classifier := rfl
  own := rfl
  cfg := rfl
  sync := rfl
  number := rfl
  events := rfl

theorem RunKept.late {s v : State} (h : RunKept s v) (p : Port) (n : Word) : (v.ports.get p).late n = (s.ports.get p).late n := by
  rw [PortUnit.late, h.queues, PortUnit.late]

theorem RunKept.lateReported {s v : State} (h : RunKept s v) (p : Port) (n : Word) : v.lateReported n p = s.lateReported n p := by
  funext m
  simp only [State.lateReported, State.reportsStream, PortUnit.lateFlagged, h.late, h.cfg, h.classifier]

theorem RunKept.lateCount {s v : State} (h : RunKept s v) (p : Port) (n : Word) : (v.ports.get p).lateCount n = (s.ports.get p).lateCount n := by
  funext m
  simp only [PortUnit.lateCount, h.late]

/-- The number that an expiry is judged against: the one left with it, or the number of the cycle that begins (log entry 11). -/
def State.expiryNumber (s : State) (p : Port) : Word :=
  (s.aux.expiryLeft.get p).getD (if s.clock.timer = 0 then s.clock.number else s.clock.number + 1)

theorem setAux_self (s : State) : s.setAux s.aux = s := rfl

/-- The row is the expiry of its port against that number, where the timer may have run; beside it the book of expiries changes alone. -/
theorem exec_lifetimeExpiry {s : State} {p : Port} (hr : s.resetHeld = false) : ∃ v a, RunKept s v ∧
    a.choiceDue = (v.expirePort (s.expiryNumber p) p).aux.choiceDue ∧
    exec (.lifetimeExpiry p) s = .next (settle ((v.expirePort (s.expiryNumber p) p).setAux a)) := by
  simp only [Machine.exec, execLifetimeExpiry]
  rw [taken_running hr]
  unfold State.expiryNumber
  cases s.aux.expiryLeft.get p with
  | some n =>
    let a := (s.expirePort n p).aux
    exact ⟨s, { a with expiryLeft := a.expiryLeft.set p none }, .refl s, rfl, rfl⟩
  | none =>
    simp only [Option.getD_none]
    by_cases ht : s.clock.timer = 0
    · simp only [if_pos ht]
      exact ⟨s, (s.expirePort s.clock.number p).aux, .refl s, rfl, by rw [setAux_self]⟩
    · simp only [if_neg ht]
      have hrun := RunKept.runTo s s.clock.cycleEnd
      generalize s.runTo s.clock.cycleEnd = v at hrun
      rw [hrun.number]
      let a := (v.expirePort (s.clock.number + 1) p).aux
      exact ⟨v, { a with expiryTaken := a.expiryTaken.set p true }, hrun, rfl, rfl⟩

section
variable {s v : State} {n : Word} {p : Port}

/-- The port of an expiry keeps the live descriptors, and counts the late ones. -/
theorem expirePort_self (h : RunKept s v) :
    (∀ k, ((v.expirePort n p).ports.get p).queues.get k = ((s.ports.get p).queues.get k).filter fun d => !earlier d.deadline n) ∧
    ((v.expirePort n p).ports.get p).count =
      { (s.ports.get p).count with late := (s.ports.get p).count.late + BitVec.ofNat 32 ((s.ports.get p).late n).length } := by
  rw [expirePort_ports, if_pos rfl, late_eq, h.queues, h.count, h.late]
  exact ⟨fun k => Quad.get_map .., rfl⟩

theorem expirePort_other (h : RunKept s v) {q : Port} (hq : q ≠ p) : ((v.expirePort n p).ports.get q).queues = (s.ports.get q).queues ∧
    ((v.expirePort n p).ports.get q).count = (s.ports.get q).count := by
  rw [expirePort_ports, if_neg hq]
  exact ⟨h.queues q, h.count q⟩

theorem expirePort_links (h : RunKept s v) (q : Port) : ((v.expirePort n p).ports.get q).tx.isIdle = (s.ports.get q).tx.isIdle ∧
    ((v.expirePort n p).ports.get q).admin = (s.ports.get q).admin ∧ ((v.expirePort n p).ports.get q).link = (s.ports.get q).link := by
  rw [expirePort_ports, ← h.idle, ← h.admin, ← h.link]
  split
  · next hq =>
    rw [hq]
    exact ⟨rfl, rfl, rfl⟩
  · exact ⟨rfl, rfl, rfl⟩

end

/-- A cycle start touches no class queue and no LATE (log entry 11). -/
theorem cycleStart_queues (s : State) (p : Port) : (s.cycleStart.ports.get p).queues = (s.ports.get p).queues ∧
    (s.cycleStart.ports.get p).count.late = (s.ports.get p).count.late := by
  rw [cycleStart_port]
  split
  · unfold PortUnit.offeredSync
    split
    · split <;> exact ⟨rfl, rfl⟩
    · exact ⟨rfl, rfl⟩
  · exact ⟨rfl, rfl⟩

/-- Settles O10: what an expiry does to its port (`expirePort_self`), to the store and the choice (`expirePort_rest`), and to records and notices
(`expirePort_reports`); and what a cycle start leaves to it (`cycleStart_aux`). -/
theorem lifetimeExpiryRemovesLateDescriptors : Obligations.LifetimeExpiryRemovesLateDescriptors := by
  refine ⟨fun s p hr => ?_, fun s hr => ⟨_, exec_naturalCycleStart hr, ?_, fun p => ⟨?_, ?_, ?_⟩⟩⟩
  · obtain ⟨v, a, hv, ha, hexec⟩ := exec_lifetimeExpiry (p := p) hr
    have hkept : Kept v ((v.expirePort (s.expiryNumber p) p).setAux a) := (expirePort_kept v (s.expiryNumber p) p).trans (setAux_kept ..)
    obtain ⟨hown, hstore, hmarks, hdue⟩ := expirePort_rest v (s.expiryNumber p) p
    obtain ⟨hevents, hrecords⟩ := expirePort_reports v (s.expiryNumber p) p
    obtain ⟨hqueues, hcount⟩ := expirePort_self (n := s.expiryNumber p) (p := p) hv
    rw [hv.late, hv.store] at hstore
    rw [hv.late, hv.lateReported, hv.lateCount] at hevents
    rw [hv.classifier, hv.lateReported, hv.lateCount, hv.cfg] at hrecords
    have htimer : (v.expirePort (s.expiryNumber p) p).events.timer = v.events.timer := by rw [hevents, raiseLate_timer]
    refine ⟨_, hexec, ⟨hqueues, hcount, hstore, fun m r hr => (hrecords m r hr).trans ?_, hmarks.trans (by rw [hv.classifier]), ?_, ?_⟩,
      fun q hq => expirePort_other hv hq, fun q => expirePort_links hv q, hkept.cfg.trans hv.cfg, hkept.sync.trans hv.sync, hown.trans hv.own,
      by rw [hkept.clock, hv.number]⟩
    · congr 2
      congr 1
      exact apply_ite (BitVec.ofNat 32) ..
    · rw [State.setAux_events, htimer, ← hv.events]
      exact hevents
    · rintro ⟨k, d, ds, hq, hd, hx⟩
      refine (congrArg (PerPort.get · p) ha).trans (hdue ?_)
      rw [hv.queues]
      exact headExpires_of _ hq hd hx
  · rw [(cycleStart_timing _).2.2.2.2.2.2.2.1]
    rfl
  · exact (cycleStart_aux _).1 p
  · exact (cycleStart_queues _ p).1.trans (advance_queues ..)
  · exact (cycleStart_queues _ p).2.trans (congrArg PortCounters.late (advance_count ..))

end Sys2Proof.Machine
end
